-- ==== Sys2Proof/Word.lean ====
section
/-! DEFINITION. The word types of the part: bytes of frames, 16-bit values, lug sequences, 24-bit tally
counts, and the stored table word with its marks of changed bits. -/

namespace Sys2Proof

/-- One byte of a frame (chapter 11). -/
abbrev Byte := BitVec 8

/-- A 16-bit value: a table word (R134), a two-byte frame field (R189), a saturating counter (Table 0-8). -/
abbrev Word := BitVec 16

/-- A lug sequence, 0 to 65535, wrapping (Conventions, "Lug sequence"). -/
abbrev LugSeq := BitVec 16

/-- A tally count field, 0 to 16,777,215 (R120). -/
abbrev Count24 := BitVec 24

/-- The number of stored bits of a table word that have changed since it was written. -/
def popCount (x : BitVec 22) : Nat := (List.range 22).countP fun i => x.getLsbD i

/-- A stored table word (R134): the value it was last written with, and one mark for each of its 22
stored bits (16 of value, 6 of check) that has changed since. The stored bits are the written value
and its check bits with the marked bits inverted (notes/assumptions/13.md). -/
structure StoredWord where
  written : Word
  changed : BitVec 22
  deriving DecidableEq, Repr, Inhabited

/-- The result of checking a word read (R135). -/
inductive CheckResult where
  | clean (v : Word)
  | single (v : Word)
  | double
  deriving DecidableEq, Repr, Inhabited

end Sys2Proof
end

