-- ==== Sys2Proof/Config.lean ====
section
/-! DEFINITION. What the spec leaves to the part: the free values (opaque constants, no proof can see
them), and the fixed capacities of the part. -/

namespace Sys2Proof.Config

/-- R135: beyond two changed bits "the part acts on whatever result the check computes". Which result
that is, for a word written with the first argument whose changed bits are the second, is a free value
(notes/assumptions/13.md). -/
opaque checkBeyondTwo : Word → BitVec 22 → CheckResult

/-- R154: whether the write of an access cut by the reset input lands. A free value for each such event,
indexed by `State.freeCount` (notes/assumptions/15.md). -/
opaque writeLands : Nat → Bool

/-- The tag of an ALERT frame, which no rule gives: a free value for each alert sent, indexed by
`State.freeCount` (notes/assumptions/16.md). -/
opaque alertTag : Nat → Word

/-- R183, LINK group: the byte that reports a frame in transmission, which no layout gives, from the first
header byte of that frame (notes/assumptions/17.md). -/
opaque sendingCode : Byte → Byte

/-- R183, OPTIMIZER group: the quick-flag byte when no job runs, which no layout gives
(notes/assumptions/18.md). -/
opaque quickOfNoJob : Byte

end Sys2Proof.Config

namespace Sys2Proof

/-- R165, Table 9-6: capacities of the receive queues. -/
def scanCapacity : Nat := 32
/-- R165, Table 9-6. -/
def markCapacity : Nat := 8
/-- R165, Table 9-6. -/
def mgmtCapacity : Nat := 4
/-- R165, Table 9-6. -/
def sorterCapacity : Nat := 8
/-- R167: places of a transmit queue. -/
def txCapacity : Nat := 8
/-- R44: places of the optimizer queue. -/
def optCapacity : Nat := 16

end Sys2Proof
end

