-- ==== Sys2Proof/Syntax.lean ====
section
/-! DEFINITION. The commands of the part: one constructor of `Instr` for each row of
spec/opcode_table.json, with the frames, ports and symbols they carry. -/

namespace Sys2Proof

/-- The two link ports (chapter 9). -/
inductive Port where
  | U
  | D
  deriving DecidableEq, Repr

/-- The other port, to which a frame is forwarded (R166). -/
def Port.other : Port → Port
  | .U => .D
  | .D => .U

/-- The four receive queues (R165). -/
inductive QueueId where
  | scan
  | mark
  | mgmt
  | sorter
  deriving DecidableEq, Repr

/-- A symbol of the line coding (section 9.1). -/
inductive Symbol where
  | data (b : Byte)
  | idle
  | startMark
  | endMark
  deriving DecidableEq, Repr

/-- What ends a frame as malformed (R155): a length field above 240, an end mark too early, or a new start
mark too early (which also begins the next frame). -/
inductive MalformedBy where
  | overLength
  | endMark
  | startMark
  deriving DecidableEq, Repr

/-- A whole frame (section 9.1, Table 11-1): header bytes 0 to 2 as they stand on the line, the tag, the
body (whose length is header byte 5) and the check. -/
structure Frame where
  b0 : Byte
  b1 : Byte
  b2 : Byte
  tag : Word
  body : List Byte
  check : Word
  deriving DecidableEq, Repr

/-- The commands of the part, one for each row of spec/opcode_table.json. A command with no operand acts on
what the state holds for it: the frame at the head of a receive queue, an event handed over, the access,
job or transmission in progress. -/
inductive Instr where
  -- chain (chapter 1)
  | encoderCount
  | missingIndex
  | lugIndex
  -- scan assembly (chapter 2)
  | scanDeadline
  | boardOpen
  | profile
  | profileCont
  | boardClose
  | scanQueueOverflow
  -- trim optimizer (chapter 3)
  | offer (lug : LugSeq)
  | optimizerRead
  | jobCompletion
  | optimizerLock
  -- grader marks (chapter 4)
  | gradeMark
  | cutMark
  | rejectMark
  | clearMark
  | badMarkKind
  | markQueueOverflow
  -- commitment, saws, sorting (chapter 5)
  | lockArrival
  | commitCompletion
  | sawSwitchPoint
  | sortArrival
  -- sorter notices (chapter 6)
  | binEmptied
  | binService
  -- links (chapter 9)
  | frameArrival (port : Port) (frame : Frame)
  | malformedFrame (port : Port) (how : MalformedBy)
  | misroutedFrame (queue : QueueId)
  | linkAliveExpiry (port : Port)
  | linkUp (port : Port) (sym : Symbol)
  | transmissionComplete (port : Port)
  -- table memory (chapter 8)
  | tableRead
  | tableWrite
  | tableWriteByte
  | tableReadAccess
  | tableWriteAccess
  | byteWriteAccess
  | mapWrite
  | setSelect
  | copyAccess
  | scrubIntervalExpiry
  | scrubVisit
  -- management requests (chapter 10)
  | mode
  | geometryWrite
  | filterWrite
  | binWrite
  | binRead
  | quotaSet
  | quotaRead
  | tallyRead
  | tallyClose
  | statusRead
  | lugRead
  | softReset
  | badRequest
  | mgmtQueueOverflow
  -- resets
  | powerOn
  | sweepComplete
  | resetAssert
  | resetRelease
  -- link symbols, short marks
  | symbolReceived (port : Port) (sym : Symbol)
  | markShortBody
  deriving DecidableEq, Repr

end Sys2Proof
end

