-- ==== Sys2Proof/WellFormed.lean ====
section
/-! DEFINITION. When a command is well formed: the only operand with a bound that its type does not carry
is the body of a whole frame, at most 240 bytes (section 9.1). -/

namespace Sys2Proof

/-- A frame that can be complete on the line: its body is at most 240 bytes (R155, R191). -/
def Frame.wellFormed (f : Frame) : Bool := decide (f.body.length ≤ 240)

/-- The check on a command's operands. Every other operand's type holds exactly the values the spec gives. -/
def Instr.wellFormed : Instr → Bool
  | .frameArrival _ f => f.wellFormed
  | .encoderCount | .missingIndex | .lugIndex | .scanDeadline | .boardOpen | .profile | .profileCont
  | .boardClose | .scanQueueOverflow | .offer _ | .optimizerRead | .jobCompletion | .optimizerLock
  | .gradeMark | .cutMark | .rejectMark | .clearMark | .badMarkKind | .markQueueOverflow | .lockArrival
  | .commitCompletion | .sawSwitchPoint | .sortArrival | .binEmptied | .binService
  | .malformedFrame _ _ | .misroutedFrame _ | .linkAliveExpiry _ | .linkUp _ _ | .transmissionComplete _
  | .tableRead | .tableWrite | .tableWriteByte | .tableReadAccess | .tableWriteAccess | .byteWriteAccess
  | .mapWrite | .setSelect | .copyAccess | .scrubIntervalExpiry | .scrubVisit | .mode | .geometryWrite
  | .filterWrite | .binWrite | .binRead | .quotaSet | .quotaRead | .tallyRead | .tallyClose | .statusRead
  | .lugRead | .softReset | .badRequest | .mgmtQueueOverflow | .powerOn | .sweepComplete | .resetAssert
  | .resetRelease | .symbolReceived _ _ | .markShortBody => true

end Sys2Proof
end

