-- ==== Sys2Proof/Decode.lean ====
section
/-! DEFINITION. Reading a command from an opcode-table word. spec/opcode_table.json gives its rows no bits
("fields": [] in every row, no match and no mask), so no word spells a command. -/

namespace Sys2Proof

/-- The command that a word of `nbits` bits spells by the table's bits: none, for every word, since no row
of the table has bits. -/
def decodeTableWord (_nbits _w : Nat) : Option Instr := none

end Sys2Proof
end

