-- ==== Sys2Proof/Machine/State.lean ====
section
/-! DEFINITION. The state of the part, block by block (00_scope.md, Table 0-1), as plain data, and the state
right after power-on. -/

namespace Sys2Proof.Machine

open Sys2Proof

/-- The part has no fault that stops it: every error is a reply, a counter or an alert. No constructor, so
no command can answer a fault (INVENTORY.md, "Faults"). -/
inductive Fault
  deriving DecidableEq, Repr

/-- Why a command has no meaning in the model. -/
inductive Refusal where
  /-- Raised by `exec`'s arm for a command that has no meaning yet; safe. No arm raises it now. -/
  | notModelled (mnemonic : String)
  deriving DecidableEq, Repr

/-- A sparse store with natural-number keys: listed entries, keys strictly rising, no entry equal to what an
unlisted key reads as (`sparseGet`, `sparseSet`, `sparseWf` in Machine/Ops.lean). -/
abbrev Sparse (α : Type) := List (Nat × α)

/-! ### Names of chapter 1 -/

/-- Table 0-5: the line modes. -/
inductive LineMode where
  | stop
  | bypass
  | run
  deriving DecidableEq, Repr

/-- Table 1-4: board presence. -/
inductive Board where
  | none
  | present
  | unscanned
  deriving DecidableEq, Repr

/-- Table 1-4: scan state; "absent" is `Option.none` in the slot. -/
inductive ScanState where
  | opened
  | complete
  | partialScan
  deriving DecidableEq, Repr

/-- Table 3-1: optimization states of a slot. -/
inductive OptState where
  | none
  | waiting
  | running
  | decided
  | stale
  | skipped
  | fault
  deriving DecidableEq, Repr

/-- Table 0-6: recycle causes. -/
inductive RecycleCause where
  | unscanned
  | noBuffer
  | partialScan
  | skipped
  | lateDecision
  | fault
  | cutConflict
  deriving DecidableEq, Repr

/-- Table 0-4: the partial policy. -/
inductive PartialPolicy where
  | optimize
  | recycle
  deriving DecidableEq, Repr

/-- The two table sets (R142). -/
inductive SetId where
  | s0
  | s1
  deriving DecidableEq, Repr

/-! ### Decisions -/

/-- The fields of a PIECE decision (Table 3-5): the pair, the computed and final grades, the product, the
value, the chosen and alternate bins (none is 255). The length code n is j − i. -/
structure PieceData where
  i : Nat
  j : Nat
  grade : Nat
  final : Nat
  product : Nat
  value : Nat
  chosen : Option Nat
  alternate : Option Nat
  deriving DecidableEq, Repr

/-- The kind of a decision with what only that kind carries (R61). -/
inductive DecisionBody where
  | piece (p : PieceData)
  | cull
  | reject
  deriving DecidableEq, Repr

/-- The decision record of R61, Table 3-5. -/
structure Decision where
  body : DecisionBody
  wc : Nat
  set : Option SetId
  quick : Bool
  partialFlag : Bool
  revision : Byte
  deriving DecidableEq, Repr

/-- The commitment kinds that are written into a slot (R92); EMPTY writes nothing. -/
inductive CommitKind where
  | piece
  | cull
  | reject
  | bypass
  | recycle
  deriving DecidableEq, Repr

/-- The committed decision of R92: kind, saws, reserved bin (none is 255), product (PIECE only); and, for RECYCLE,
the recycle cause written at lock, the one R123 counts (notes/assumptions/53.md). -/
structure Committed where
  kind : CommitKind
  saws : Option (Nat × Nat)
  bin : Option Nat
  product : Option Nat
  cause : Option RecycleCause := .none
  deriving DecidableEq, Repr

/-- The slot record of Table 1-4 (R11). The commit state is COMMITTED exactly when `committed` is present
(notes/assumptions/30.md). Sets of heads are bitmaps, bit k for head k. -/
structure Slot where
  seq : LugSeq
  origin : LineMode
  board : Board
  scan : Option ScanState
  loss : Bool
  partialFlag : Bool
  len : Nat
  width : Nat
  wc : Nat
  expected : BitVec 8
  closed : BitVec 8
  buffer : Option Nat
  cap : Option Nat
  cuts : List Nat
  reject : Bool
  revision : Byte
  optState : OptState
  decision : Option Decision
  committed : Option Committed
  cause : Option RecycleCause
  deriving DecidableEq, Repr

/-- The empty form of R12: origin STOP, board NONE, every other field at its creation value. -/
def Slot.empty (seq : LugSeq) : Slot :=
  { seq := seq, origin := .stop, board := .none, scan := .none, loss := false, partialFlag := false,
    len := 0, width := 0, wc := 0, expected := 0, closed := 0, buffer := .none, cap := .none, cuts := [],
    reject := false, revision := 0, optState := .none, decision := .none, committed := .none,
    cause := .none }

/-! ### Settings and Chain Tracker -/

/-- The thirteen settings of Table 0-4. -/
structure Settings where
  countsPerStep : Nat
  tol : Nat
  lead : Nat
  dScanwin : Nat
  dLock : Nat
  dTrim : Nat
  dSort : Nat
  policy : PartialPolicy
  quick : Nat
  bypassPair : Option (Nat × Nat)
  bypassBin : Nat
  ownAddress : Nat
  scrubInterval : Nat
  deriving DecidableEq, Repr

/-- Table 0-4 and Table 0-3: the defaults. -/
def Settings.defaults : Settings :=
  { countsPerStep := 240, tol := 12, lead := 40, dScanwin := 1, dLock := 12, dTrim := 16, dSort := 40,
    policy := .recycle, quick := 6, bypassPair := .none, bypassBin := 0, ownAddress := 20,
    scrubInterval := 100 }

/-- Chain Tracker state (section 1.1, R13, R14). `switchHanded` says that the present lug step has handed
its saw switch point (R1, R7; notes/assumptions/10.md). -/
structure Chain where
  seq : LugSeq
  c : Nat
  switchHanded : Bool
  spurious : Word
  slip : Word
  missing : Word
  mode : LineMode
  starting : Bool
  deriving DecidableEq, Repr

/-- R21: CT state at a reset, but for the mode and STARTING, which are given. -/
def Chain.atReset (starting : Bool) : Chain :=
  { seq := 0, c := 0, switchHanded := false, spurious := 0, slip := 0, missing := 0, mode := .stop,
    starting := starting }

/-- R21: slot k's sequence after a reset is the one whose offset from 0 is 64 − k, and 0 for slot 0. -/
def resetSeq (k : Nat) : LugSeq := if k = 0 then 0 else BitVec.ofNat 16 (65472 + k)

/-- R21: the lug ring after a reset. -/
def ringAtReset : Vector Slot 64 :=
  ⟨⟨(List.range 64).map fun k => Slot.empty (resetSeq k)⟩, by simp⟩

/-! ### Scan Assembler -/

/-- Table 2-1: one head of the head cache. -/
structure HeadEntry where
  participating : Bool
  lead : Bool
  mirrored : Bool
  firstZone : Nat
  lastZone : Nat
  classMap : Vector (BitVec 4) 64
  deriving DecidableEq, Repr

/-- The head cache (section 2.1): eight heads and the thresholds t1 to t7. -/
structure HeadCache where
  heads : Vector HeadEntry 8
  thresholds : List Nat
  deriving DecidableEq, Repr

/-- R22: a head of the empty cache. -/
def HeadEntry.empty : HeadEntry :=
  { participating := false, lead := false, mirrored := false, firstZone := 0, lastZone := 0,
    classMap := Vector.replicate 64 0 }

/-- R22: the empty cache. -/
def HeadCache.empty : HeadCache :=
  { heads := Vector.replicate 8 HeadEntry.empty, thresholds := List.replicate 7 0 }

/-- A window cursor (section 2.5); position `none` is the mark *exhausted*. -/
structure Cursor where
  tag : LugSeq
  z1 : Nat
  z2 : Nat
  s1 : Nat
  s2 : Nat
  mirrored : Bool
  position : Option (Nat × Nat)
  deriving DecidableEq, Repr

/-- Table 2-6: the scan counters. -/
structure ScanCounts where
  lateOpen : Word := 0
  wrongMode : Word := 0
  duplicate : Word := 0
  notLead : Word := 0
  noBuffer : Word := 0
  shortBody : Word := 0
  unknownLug : Word := 0
  foreignHead : Word := 0
  noBoard : Word := 0
  lateProfile : Word := 0
  badWindow : Word := 0
  noWindow : Word := 0
  excessCells : Word := 0
  badCode : Word := 0
  lateClose : Word := 0
  duplicateClose : Word := 0
  scanLoss : Word := 0
  deriving DecidableEq, Repr

/-- Scan Assembler state (chapter 2). A map buffer lists cells by zone × 264 + station, unlisted cells
holding class 0. -/
structure ScanAssembler where
  cache : HeadCache
  buffers : Vector (Sparse (BitVec 4)) 24
  freeList : List Nat
  cursors : Vector (Option Cursor) 8
  lossRun : Nat
  counts : ScanCounts
  deriving DecidableEq, Repr

/-- R43: SA state at a reset that leaves the given cache and buffer contents. -/
def ScanAssembler.atReset (cache : HeadCache) (buffers : Vector (Sparse (BitVec 4)) 24) : ScanAssembler :=
  { cache := cache, buffers := buffers, freeList := List.range 24, cursors := Vector.replicate 8 .none,
    lossRun := 0, counts := {} }

/-! ### Trim Optimizer -/

/-- R50, R117: the snapshot, the bins open and the products exhausted at the job start. -/
structure Snapshot where
  openBins : List Nat
  exhausted : List Nat
  deriving DecidableEq, Repr

/-- The running job with its latched values (R49). `len`, `wc` and `cells` hold the raw length, the width class
and the map cells, which read the same throughout the job (notes/assumptions/20.md). `words` holds the table
words read so far, keyed by logical page × 256 + word; `asked` is the key of the word the job waits for;
`uncorrectable` says that the job received an uncorrectable word (R52). -/
structure Job where
  lug : LugSeq
  set : SetId
  revision : Byte
  cap : Option Nat
  cuts : List Nat
  partialFlag : Bool
  quick : Bool
  snapshot : Snapshot
  len : Nat
  wc : Nat
  cells : Sparse (BitVec 4)
  words : List (Nat × Word)
  asked : Option Nat
  uncorrectable : Bool
  deriving DecidableEq, Repr

/-- Table 3-11: the optimizer counters. -/
structure OptCounts where
  started : Word := 0
  quick : Word := 0
  decided : Word := 0
  discarded : Word := 0
  fault : Word := 0
  abandoned : Word := 0
  skipped : Word := 0
  staleOverflow : Word := 0
  deriving DecidableEq, Repr

/-- Trim Optimizer state (chapter 3). -/
structure Optimizer where
  queue : List LugSeq
  job : Option Job
  lastQuick : Bool
  counts : OptCounts
  deriving DecidableEq, Repr

/-- R69: TO state at each reset. -/
def Optimizer.atReset : Optimizer :=
  { queue := [], job := .none, lastQuick := false, counts := {} }

/-! ### Mark Handler -/

/-- Table 4-4: the mark counters. -/
structure MarkCounts where
  acceptedGrade : Word := 0
  acceptedCut : Word := 0
  acceptedReject : Word := 0
  acceptedClear : Word := 0
  unknownLug : Word := 0
  late : Word := 0
  noBoard : Word := 0
  badMark : Word := 0
  full : Word := 0
  dropped : Word := 0
  shortBody : Word := 0
  deriving DecidableEq, Repr

/-! ### Commit Unit -/

/-- A commit in flight (R89): the lug, and its regraded decision, whose bins the awaited word gives. -/
structure InFlight where
  lug : LugSeq
  decision : Decision
  deriving DecidableEq, Repr

/-- Commit Unit state (chapter 5). -/
structure CommitUnit where
  saws : Option (Nat × Nat)
  source : Option LugSeq
  inFlight : Option InFlight
  heldLocks : List LugSeq
  heldSwitch : Option LugSeq
  deriving DecidableEq, Repr

/-- R103: CU state at each reset. -/
def CommitUnit.atReset : CommitUnit :=
  { saws := .none, source := .none, inFlight := .none, heldLocks := [], heldSwitch := .none }

/-! ### Bin and Order Store -/

/-- Table 6-1: a bin record. -/
structure BinRecord where
  capacity : Nat
  fill : Nat
  reserved : Nat
  outOfService : Bool
  deriving DecidableEq, Repr

/-- Table 6-4: the store counters. -/
structure StoreCounts where
  shortNotice : Word := 0
  badBin : Word := 0
  catchBinNotice : Word := 0
  badDirection : Word := 0
  clampedWrites : Word := 0
  bin0Saturated : Word := 0
  deriving DecidableEq, Repr

/-- Bin and Order Store state (chapter 6); an unlisted quota entry is absent. -/
structure BinStore where
  bins : Vector BinRecord 48
  quota : Sparse (Option Nat)
  counts : StoreCounts
  deriving DecidableEq, Repr

/-- R119: BOS state at power-on. -/
def BinStore.atPowerOn : BinStore :=
  { bins := Vector.replicate 48 { capacity := 0, fill := 0, reserved := 0, outOfService := false },
    quota := [], counts := {} }

/-! ### Tally Unit -/

/-- The count fields of a tally period (Table 7-1). -/
inductive TallyField where
  | pieces (p : Nat)
  | feet (p : Nat)
  | bin (b : Nat)
  | outcome (k : CommitKind)
  | cause (c : RecycleCause)
  | redirects
  | overQuota
  | catchDiversions
  | staleCommits
  | quickPieces
  | marksAccepted
  | marksLate
  | marksRefused
  | clearings
  deriving DecidableEq, Repr

/-- A tally period record (R120): its number, its count fields keyed by `tallyKey` (unlisted fields are 0)
and its saturated flag. -/
structure TallyPeriod where
  number : Word
  counts : Sparse Count24
  saturated : Bool
  deriving DecidableEq, Repr

/-- The closed period with the two values recorded at the close (R129). -/
structure ClosedPeriod where
  period : TallyPeriod
  seqAtClose : LugSeq
  inTransit : Nat
  deriving DecidableEq, Repr

/-- Tally Unit state (chapter 7). -/
structure Tally where
  current : TallyPeriod
  closed : Option ClosedPeriod
  deriving DecidableEq, Repr

/-- R133: TU state at power-on. -/
def Tally.atPowerOn : Tally :=
  { current := { number := 0, counts := [], saturated := false }, closed := .none }

/-! ### Table Memory -/

/-- R136: the requesters of an access. -/
inductive Requester where
  | scrubber
  | commit
  | optimizer
  | management
  deriving DecidableEq, Repr

/-- R148: the half a byte write replaces. -/
inductive Half where
  | high
  | low
  deriving DecidableEq, Repr

/-- What an access does (R134, R139, R141, R148). -/
inductive AccessKind where
  | read
  | write (v : Word)
  | writeByte (half : Half) (b : Byte)
  | scrub
  deriving DecidableEq, Repr

/-- The access in progress (R138, R139). `wanted` is false once its requester has been abandoned. -/
structure Access where
  who : Requester
  index : Nat
  kind : AccessKind
  wanted : Bool
  deriving DecidableEq, Repr

/-- A mapped page map entry (R142). -/
structure MapEntry where
  page : Nat
  readOnly : Bool
  deriving DecidableEq, Repr

/-- R136: the error record: physical page, word within it, requester. -/
structure ErrorRecord where
  page : Nat
  word : Nat
  who : Requester
  deriving DecidableEq, Repr

/-- Table Memory state (chapter 8). Words are listed by physical index, unlisted words being 0 and Clean.
`waitCommit`, `waitOpt` hold the physical index of a waiting read, `waitMgmt` a waiting index and kind;
the scrubber's waiting request is `visitDue`. `scrubTimer` holds the interval in force, or none while the
timer is stopped. -/
structure TableMemory where
  words : Sparse StoredWord
  map0 : Vector (Option MapEntry) 10
  map1 : Vector (Option MapEntry) 10
  active : Option SetId
  record : Option ErrorRecord
  corrected : Word
  uncorrected : Word
  scrubPos : BitVec 13
  visitDue : Bool
  scrubTimer : Option Nat
  access : Option Access
  waitCommit : Option Nat
  waitOpt : Option Nat
  waitMgmt : Option (Nat × AccessKind)
  deriving DecidableEq, Repr

/-- R153: TM state at power-on, over the given words (which the sweep then writes, R152). -/
def TableMemory.atPowerOn (words : Sparse StoredWord) : TableMemory :=
  { words := words, map0 := Vector.replicate 10 .none, map1 := Vector.replicate 10 .none, active := .none,
    record := .none, corrected := 0, uncorrected := 0, scrubPos := 0, visitDue := false,
    scrubTimer := .none, access := .none, waitCommit := .none, waitOpt := .none, waitMgmt := .none }

/-! ### Link Unit -/

/-- R157: link states. -/
inductive LinkState where
  | down
  | up
  deriving DecidableEq, Repr

/-- R159: error states. -/
inductive ErrorState where
  | clean
  | noisy
  | failed
  deriving DecidableEq, Repr

/-- R170: alert kinds. -/
inductive AlertKind where
  | bin
  | port
  | chain
  | ecc
  | scanLoss
  deriving DecidableEq, Repr

/-- An entry of a transmit queue: a frame with its priority (R167), or an ALERT, whose body is built when it
is sent, with its occurrence count (R170). -/
inductive TxItem where
  | frame (prio : Fin 4) (f : Frame)
  | alert (kind : AlertKind) (occurrences : Nat)
  deriving DecidableEq, Repr

/-- R161: the destination field of a filter entry. -/
inductive DestSel where
  | any
  | own
  deriving DecidableEq, Repr

/-- R161: the port field of a filter entry. -/
inductive PortSel where
  | u
  | d
  | either
  deriving DecidableEq, Repr

/-- R161: the action of a filter entry. -/
inductive FilterAction where
  | consume
  | consumeForward
  | forward
  | drop
  deriving DecidableEq, Repr

/-- R161: a filter entry with its hit count. -/
structure Filter where
  enabled : Bool
  classMatch : BitVec 6
  classMask : BitVec 6
  originMatch : BitVec 5
  originMask : BitVec 5
  dest : DestSel
  port : PortSel
  action : FilterAction
  queue : QueueId
  hits : Word
  deriving DecidableEq, Repr

/-- Table 9-5, F4 to F15: a disabled entry. -/
def Filter.disabled : Filter :=
  { enabled := false, classMatch := 0, classMask := 0, originMatch := 0, originMask := 0, dest := .any,
    port := .either, action := .drop, queue := .scan, hits := 0 }

/-- Table 9-5: the default acceptance table (R163). -/
def defaultFilters : Vector Filter 16 :=
  ⟨⟨[{ Filter.disabled with enabled := true, classMatch := 0, classMask := 0x38, port := .u,
                            action := .consumeForward, queue := .scan },
     { Filter.disabled with enabled := true, classMatch := 8, classMask := 0x3F, port := .u,
                            action := .consume, queue := .mark },
     { Filter.disabled with enabled := true, classMatch := 20, classMask := 0x3E, port := .d,
                            action := .consume, queue := .sorter },
     { Filter.disabled with enabled := true, classMatch := 32, classMask := 0x3F, dest := .own,
                            action := .consume, queue := .mgmt }]
    ++ List.replicate 12 Filter.disabled⟩, rfl⟩

/-- What one port holds (chapter 9). `timer` says that the link-alive timer runs; `rx` holds the bytes of the
frame being received since its start mark, or none outside a frame; `sending` is the frame in transmission;
`drops` counts lost frames by priority. -/
structure PortState where
  link : LinkState
  timer : Bool
  errCount : Nat
  errState : ErrorState
  rx : Option (List Byte)
  tx : List TxItem
  sending : Option Frame
  good : Word
  bad : Word
  malformed : Word
  failedDiscards : Word
  drops : Vector Word 4
  deriving DecidableEq, Repr

/-- R173: a port at power-on and at the release of the reset input. -/
def PortState.atReset : PortState :=
  { link := .down, timer := false, errCount := 0, errState := .clean, rx := .none, tx := [],
    sending := .none, good := 0, bad := 0, malformed := 0, failedDiscards := 0,
    drops := Vector.replicate 4 0 }

/-- One counter for each receive queue. -/
structure PerQueue where
  scan : Word := 0
  mark : Word := 0
  mgmt : Word := 0
  sorter : Word := 0
  deriving DecidableEq, Repr

/-- One counter for each alert kind. -/
structure PerAlert where
  bin : Word := 0
  port : Word := 0
  chain : Word := 0
  ecc : Word := 0
  scanLoss : Word := 0
  deriving DecidableEq, Repr

/-- Link Unit state (chapter 9). -/
structure LinkUnit where
  u : PortState
  d : PortState
  filters : Vector Filter 16
  scanQ : List (Port × Frame)
  markQ : List (Port × Frame)
  mgmtQ : List (Port × Frame)
  sorterQ : List (Port × Frame)
  overflow : PerQueue
  misrouted : PerQueue
  sorterDropped : Word
  merged : PerAlert
  deriving DecidableEq, Repr

/-- R173: LU state at power-on and at the release of the reset input. -/
def LinkUnit.atReset : LinkUnit :=
  { u := PortState.atReset, d := PortState.atReset, filters := defaultFilters, scanQ := [], markQ := [],
    mgmtQ := [], sorterQ := [], overflow := {}, misrouted := {}, sorterDropped := 0, merged := {} }

/-! ### Management Handler -/

/-- The work of a request in execution: a TABLE-READ from a physical index with the values read so far, a
TABLE-WRITE or TABLE-WRITE-BYTE with its values and the position of the next, or a head-cache copy with its
staging copy (R146, R147, R148, R150). -/
inductive Work where
  | read (start count : Nat) (got : List Word)
  | write (start : Nat) (values : List Word) (pos : Nat)
  | writeByte (start : Nat) (half : Half) (bytes : List Byte) (pos : Nat)
  | select (set : SetId) (staging : List Word)
  deriving DecidableEq, Repr

/-- The request in execution: its port of arrival, its frame, its work (R175). -/
structure InExec where
  port : Port
  frame : Frame
  work : Work
  deriving DecidableEq, Repr

/-- Management Handler state (chapter 10). -/
structure Management where
  exec : Option InExec
  shortRequests : Word
  deriving DecidableEq, Repr

/-- R187: MG state at each reset. -/
def Management.atReset : Management := { exec := .none, shortRequests := 0 }

/-! ### The whole part -/

/-- Events handed by one block to another and not yet taken, each list oldest first (R9, R165): the model's
own field (notes/assumptions/7.md). Switch points carry the lug that R96 names at the hand-over. -/
structure HandedOver where
  deadlines : List LugSeq := []
  locks : List LugSeq := []
  optLocks : List LugSeq := []
  switches : List LugSeq := []
  sorts : List LugSeq := []
  scanOverflows : Nat := 0
  markOverflows : List (Port × Frame) := []
  mgmtOverflows : List (Port × Frame) := []
  deriving DecidableEq, Repr

/-- The state of the part. `resetPin` is the reset input held asserted; `freeCount` indexes the free values
and `pending` is the queue of waiting commands (the model's own fields, INVENTORY.md). -/
structure State where
  settings : Settings
  ct : Chain
  ring : Vector Slot 64
  sa : ScanAssembler
  opt : Optimizer
  mh : MarkCounts
  cu : CommitUnit
  bos : BinStore
  tu : Tally
  tm : TableMemory
  lu : LinkUnit
  mg : Management
  resetPin : Bool
  handed : HandedOver
  freeCount : Nat
  pending : List Instr
  deriving DecidableEq, Repr

/-- The part right after power-on: STARTING, the sweep begun (R13, R152; notes/assumptions/1.md). -/
def State.reset : State :=
  { settings := Settings.defaults
    ct := Chain.atReset true
    ring := ringAtReset
    sa := ScanAssembler.atReset HeadCache.empty (Vector.replicate 24 [])
    opt := Optimizer.atReset
    mh := {}
    cu := CommitUnit.atReset
    bos := BinStore.atPowerOn
    tu := Tally.atPowerOn
    tm := TableMemory.atPowerOn []
    lu := LinkUnit.atReset
    mg := Management.atReset
    resetPin := false
    handed := {}
    freeCount := 0
    pending := [] }

end Sys2Proof.Machine
end

