-- ==== Sys2Proof/Machine/Ops.lean ====
section
/-! DEFINITION. The named operations over the state that every block's meanings use: sparse stores, saturating
counters, updates of one block, slots of the lug ring, bins, the tally, and the guard of the reset input. -/

namespace Sys2Proof.Machine

open Sys2Proof

/-! ### Sparse stores -/

/-- Reading a sparse store: the listed entry, else the default `d`. -/
def sparseGet {α : Type} (d : α) : Sparse α → Nat → α
  | [], _ => d
  | (k, v) :: m, a => if a = k then v else sparseGet d m a

/-- Writing a sparse store, keeping the canonical form: writing the default removes the entry. -/
def sparseSet {α : Type} [DecidableEq α] (d : α) : Sparse α → Nat → α → Sparse α
  | [], a, x => if x = d then [] else [(a, x)]
  | (k, v) :: m, a, x =>
    if a < k then (if x = d then (k, v) :: m else (a, x) :: (k, v) :: m)
    else if a = k then (if x = d then m else (a, x) :: m)
    else (k, v) :: sparseSet d m a x

/-- The canonical form above a bound: keys at or above it, strictly rising, no entry equal to the default. -/
def sparseWfFrom {α : Type} [DecidableEq α] (d : α) : Nat → Sparse α → Bool
  | _, [] => true
  | lo, (k, v) :: m => decide (lo ≤ k) && decide (v ≠ d) && sparseWfFrom d (k + 1) m

/-- The canonical form of a sparse store. -/
def sparseWf {α : Type} [DecidableEq α] (d : α) (m : Sparse α) : Bool := sparseWfFrom d 0 m

/-! ### Small vectors and counters -/

/-- Applies a function to every element of a vector. -/
def vecMap {α β : Type} {n : Nat} (f : α → β) (v : Vector α n) : Vector β n :=
  ⟨⟨v.toList.map f⟩, by simp⟩

/-- Saturating increment of a 16-bit counter (Table 0-8). -/
def satInc (x : Word) : Word := if x = 0xFFFF then x else x + 1

/-- Saturating addition to a 16-bit counter. -/
def satAdd (x : Word) (n : Nat) : Word := BitVec.ofNat 16 (min 65535 (x.toNat + n))

/-! ### Updates of one block -/

/-- Replaces the settings. -/
def State.updSettings (s : State) (f : Settings → Settings) : State := { s with settings := f s.settings }
/-- Updates the Chain Tracker. -/
def State.updCt (s : State) (f : Chain → Chain) : State := { s with ct := f s.ct }
/-- Updates the lug ring. -/
def State.updRing (s : State) (f : Vector Slot 64 → Vector Slot 64) : State := { s with ring := f s.ring }
/-- Updates the Scan Assembler. -/
def State.updSa (s : State) (f : ScanAssembler → ScanAssembler) : State := { s with sa := f s.sa }
/-- Updates the Trim Optimizer. -/
def State.updOpt (s : State) (f : Optimizer → Optimizer) : State := { s with opt := f s.opt }
/-- Updates the mark counters. -/
def State.updMh (s : State) (f : MarkCounts → MarkCounts) : State := { s with mh := f s.mh }
/-- Updates the Commit Unit. -/
def State.updCu (s : State) (f : CommitUnit → CommitUnit) : State := { s with cu := f s.cu }
/-- Updates the Bin and Order Store. -/
def State.updBos (s : State) (f : BinStore → BinStore) : State := { s with bos := f s.bos }
/-- Updates the Tally Unit. -/
def State.updTu (s : State) (f : Tally → Tally) : State := { s with tu := f s.tu }
/-- Updates Table Memory. -/
def State.updTm (s : State) (f : TableMemory → TableMemory) : State := { s with tm := f s.tm }
/-- Updates the Link Unit. -/
def State.updLu (s : State) (f : LinkUnit → LinkUnit) : State := { s with lu := f s.lu }
/-- Updates the Management Handler. -/
def State.updMg (s : State) (f : Management → Management) : State := { s with mg := f s.mg }
/-- Updates the events handed over and not yet taken. -/
def State.updHanded (s : State) (f : HandedOver → HandedOver) : State := { s with handed := f s.handed }

/-- Adds one to a scan counter chosen by an update of Table 2-6. -/
def State.updScanCounts (s : State) (f : ScanCounts → ScanCounts) : State :=
  s.updSa fun sa => { sa with counts := f sa.counts }

/-- Updates the optimizer counters (Table 3-11). -/
def State.updOptCounts (s : State) (f : OptCounts → OptCounts) : State :=
  s.updOpt fun o => { o with counts := f o.counts }

/-- Updates the store counters (Table 6-4). -/
def State.updStoreCounts (s : State) (f : StoreCounts → StoreCounts) : State :=
  s.updBos fun b => { b with counts := f b.counts }

/-! ### The reset input -/

/-- An event of the part: while the reset input is held asserted the part takes no events (section 1.6,
section 11.5), otherwise the event has its effect. -/
def taken (s : State) (f : State → State) : Host.Outcome State Fault Refusal :=
  .next (if s.resetPin then s else f s)

/-! ### Lugs and slots -/

/-- A lug's offset: (current sequence − lug) mod 65536 (Conventions; R24, R70, R184). -/
def offset (s : State) (lug : LugSeq) : Nat := (s.ct.seq - lug).toNat

/-- The lug standing at an offset (R9). -/
def lugAt (seq : LugSeq) (off : Nat) : LugSeq := seq - BitVec.ofNat 16 off

/-- R10: the slot index of a lug. -/
def slotIndex (lug : LugSeq) : Nat := lug.toNat % 64

/-- R10: the slot a lug's tag addresses. -/
def slotAt (s : State) (lug : LugSeq) : Slot :=
  s.ring[lug.toNat % 64]'(Nat.mod_lt _ (by decide))

/-- Writes the slot a lug's tag addresses. -/
def setSlot (s : State) (lug : LugSeq) (sl : Slot) : State :=
  s.updRing fun r => r.set (lug.toNat % 64) sl (Nat.mod_lt _ (by decide))

/-- Changes the slot a lug's tag addresses. -/
def updSlot (s : State) (lug : LugSeq) (f : Slot → Slot) : State := setSlot s lug (f (slotAt s lug))

/-- R28: a slot's map buffer, if it holds one, joins the tail of the free list. -/
def freeBuffer (s : State) (lug : LugSeq) : State :=
  match (slotAt s lug).buffer with
  | .none => s
  | .some b =>
    (updSlot s lug fun sl => { sl with buffer := .none }).updSa
      fun sa => { sa with freeList := sa.freeList ++ [b] }

/-- The number of slots whose commit state is COMMITTED (R129, R131, R183). -/
def committedCount (s : State) : Nat := s.ring.toList.countP fun sl => sl.committed.isSome

/-! ### Bins (R104, R105) -/

/-- The record of bin b (a bin above 47 does not exist and reads as an empty full bin). -/
def binAt (b : BinStore) (n : Nat) : BinRecord :=
  (b.bins[n]?).getD { capacity := 0, fill := 0, reserved := 0, outOfService := false }

/-- Writes the record of bin b. -/
def setBin (b : BinStore) (n : Nat) (r : BinRecord) : BinStore := { b with bins := b.bins.setIfInBounds n r }

/-- R104: the load of a bin. -/
def BinRecord.load (r : BinRecord) : Nat := r.fill + r.reserved

/-- R104: bin n is open; bin 0 is open in every state of its record. -/
def binOpen (n : Nat) (r : BinRecord) : Bool :=
  n == 0 || (!r.outOfService && decide (r.load < r.capacity))

/-- R104, R105: bin n is full (bin 0 never). -/
def binFull (n : Nat) (r : BinRecord) : Bool :=
  n != 0 && !r.outOfService && decide (r.capacity ≤ r.load)

/-- R105: bin n is in the out-of-service set (bin 0 never). -/
def binOut (n : Nat) (r : BinRecord) : Bool := n != 0 && r.outOfService

/-- R105: the full-bin set, ascending. -/
def fullSet (b : BinStore) : List Nat := (List.range 48).filter fun n => binFull n (binAt b n)

/-- R105: the out-of-service set, ascending. -/
def outSet (b : BinStore) : List Nat := (List.range 48).filter fun n => binOut n (binAt b n)

/-- R106, open: one more reservation in bin n. -/
def reserveIn (b : BinStore) (n : Nat) : BinStore :=
  let r := binAt b n
  setBin b n { r with reserved := r.reserved + 1 }

/-- R107, R108: one reservation fewer in bin n. -/
def unreserve (b : BinStore) (n : Nat) : BinStore :=
  let r := binAt b n
  setBin b n { r with reserved := r.reserved - 1 }

/-- R104, R107, R118: one more piece in bin n; a fill of 65535 saturates, counted for bin 0. -/
def addPiece (b : BinStore) (n : Nat) : BinStore :=
  let r := binAt b n
  let b := if n = 0 ∧ 65535 ≤ r.fill then
      { b with counts := { b.counts with bin0Saturated := satInc b.counts.bin0Saturated } }
    else b
  setBin b n { r with fill := min 65535 (r.fill + 1) }

/-- R107: the delivery of a committed piece to bin n: the bin used and whether it was redirected, with the
store afterwards. -/
def deliver (b : BinStore) (n : Nat) : Nat × Bool × BinStore :=
  if n ≠ 0 ∧ (binAt b n).outOfService then (0, true, addPiece (unreserve b n) 0)
  else (n, false, addPiece (unreserve b n) n)

/-- The quota entry of product p (section 6.5). -/
def quotaAt (b : BinStore) (p : Nat) : Option Nat := sparseGet .none b.quota p

/-- Writes the quota entry of product p. -/
def setQuota (b : BinStore) (p : Nat) (q : Option Nat) : BinStore :=
  { b with quota := sparseSet .none b.quota p q }

/-- R114: a quota take; the flag answers *over quota*. -/
def takeQuota (b : BinStore) (p : Nat) : Bool × BinStore :=
  match quotaAt b p with
  | .none => (false, b)
  | .some 0 => (true, b)
  | .some (n + 1) => (false, setQuota b p (.some n))

/-- R50, R117: the snapshot of the store. -/
def takeSnapshot (b : BinStore) : Snapshot :=
  { openBins := (List.range 48).filter fun n => binOpen n (binAt b n)
    exhausted := (List.range 640).filter fun p => quotaAt b p == .some 0 }

/-! ### The tally (R120 to R127) -/

/-- The position of an outcome counter in R131's order. -/
def outcomeKey : CommitKind → Nat
  | .piece => 0
  | .cull => 1
  | .reject => 2
  | .recycle => 3
  | .bypass => 4

/-- The position of a cause subcounter in Table 7-1's order. -/
def causeKey : RecycleCause → Nat
  | .unscanned => 0
  | .noBuffer => 1
  | .partialScan => 2
  | .skipped => 3
  | .lateDecision => 4
  | .fault => 5
  | .cutConflict => 6

/-- The key of a count field in a period's sparse store; no two fields share one. -/
def tallyKey : TallyField → Nat
  | .outcome k => outcomeKey k
  | .cause c => 5 + causeKey c
  | .redirects => 12
  | .overQuota => 13
  | .catchDiversions => 14
  | .staleCommits => 15
  | .quickPieces => 16
  | .marksAccepted => 17
  | .marksLate => 18
  | .marksRefused => 19
  | .clearings => 20
  | .pieces p => 21 + 3 * p
  | .feet p => 22 + 3 * p
  | .bin b => 23 + 3 * b

/-- The value of a count field. -/
def TallyPeriod.count (t : TallyPeriod) (f : TallyField) : Count24 := sparseGet 0 t.counts (tallyKey f)

/-- R122: adds to one count field, saturating at 16,777,215 and then setting the saturated flag. -/
def TallyPeriod.add (t : TallyPeriod) (f : TallyField) (n : Nat) : TallyPeriod :=
  let total := (t.count f).toNat + n
  { t with
    counts := sparseSet 0 t.counts (tallyKey f) (BitVec.ofNat 24 (min 16777215 total))
    saturated := t.saturated || decide (16777215 < total) }

/-- R121: a report, all its counts applied to the current period in one event. -/
def State.report (s : State) (counts : List (TallyField × Nat)) : State :=
  s.updTu fun tu => { tu with current := counts.foldl (fun t c => t.add c.1 c.2) tu.current }

end Sys2Proof.Machine
end

