-- ==== Sys2Proof/Machine/Operands.lean ====
section
/-! DEFINITION. Chapter 11: how frames and their fields are coded in bytes. Reading fields of received bodies,
writing fields of the bodies the part originates, the check (R156), and the value codes of Table 11-2. -/

namespace Sys2Proof.Machine

open Sys2Proof

/-! ### Fields of bytes (R189) -/

/-- The byte at a place of a body; 0 beyond its end (no rule reads beyond a checked length). -/
def byteAt (l : List Byte) (i : Nat) : Byte := l.getD i 0

/-- A one-byte field. -/
def num8 (l : List Byte) (i : Nat) : Nat := (byteAt l i).toNat

/-- A two-byte field, high byte first. -/
def word16 (l : List Byte) (i : Nat) : Word := byteAt l i ++ byteAt l (i + 1)

/-- A two-byte field as a number. -/
def num16 (l : List Byte) (i : Nat) : Nat := (word16 l i).toNat

/-- A number in one byte. -/
def byte (n : Nat) : Byte := BitVec.ofNat 8 n

/-- A 16-bit value in two bytes, high byte first. -/
def be16 (w : Word) : List Byte := [w.extractLsb' 8 8, w.extractLsb' 0 8]

/-- A number in two bytes, high byte first. -/
def be16n (n : Nat) : List Byte := be16 (BitVec.ofNat 16 n)

/-- A tally count in three bytes, high byte first (R190). -/
def be24 (x : Count24) : List Byte := [x.extractLsb' 16 8, x.extractLsb' 8 8, x.extractLsb' 0 8]

/-- A flag byte: 1 for set (notes/assumptions/26.md), 0 for clear. -/
def flagByte (b : Bool) : Byte := if b then 1 else 0

/-- A one-byte field that may be absent, sent as 0xFF (R189). -/
def opt8 : Option Nat → Byte
  | .none => 0xFF
  | .some n => byte n

/-- A two-byte field that may be absent, sent as 0xFFFF (R189). -/
def opt16 : Option Nat → List Byte
  | .none => [0xFF, 0xFF]
  | .some n => be16n n

/-- A sequence or period number that may be none: presence byte, then two bytes (R189). -/
def optSeq : Option Word → List Byte
  | .none => [0, 0xFF, 0xFF]
  | .some w => 1 :: be16 w

/-- A pair of saws, none as two bytes 0xFF (R189). -/
def pairBytes : Option (Nat × Nat) → List Byte
  | .none => [0xFF, 0xFF]
  | .some (i, j) => [byte i, byte j]

/-- A set of bins as 6 bytes, bin 0 in bit 0 of the last byte (R189). -/
def binSetBytes (bins : List Nat) : List Byte :=
  let bits : BitVec 48 := bins.foldl (fun acc b => acc ||| (1#48 <<< b)) 0
  [bits.extractLsb' 40 8, bits.extractLsb' 32 8, bits.extractLsb' 24 8, bits.extractLsb' 16 8,
   bits.extractLsb' 8 8, bits.extractLsb' 0 8]

/-! ### The check (R156) -/

/-- One bit into the check register, generator x^16 + x^12 + x^5 + 1. -/
def crcBit (r : Word) (bit : Bool) : Word :=
  if r.msb ^^ bit then (r <<< 1) ^^^ 0x1021#16 else r <<< 1

/-- One byte into the check register, most significant bit first. -/
def crcByte (r : Word) (b : Byte) : Word := (List.range 8).foldl (fun r i => crcBit r (b.getMsbD i)) r

/-- The check of a run of bytes: the register starts at all ones, no final inversion. -/
def crc (bytes : List Byte) : Word := bytes.foldl crcByte 0xFFFF

/-! ### Frames (Table 11-1) -/

/-- Class, from bits 5 to 0 of byte 0 (R189). -/
def frameClass (f : Frame) : Nat := (f.b0.setWidth 6).toNat

/-- Origin, from bits 4 to 0 of byte 1 (R189). -/
def frameOrigin (f : Frame) : Nat := (f.b1.setWidth 5).toNat

/-- Destination, from bits 4 to 0 of byte 2 (R189). -/
def frameDest (f : Frame) : Nat := (f.b2.setWidth 5).toNat

/-- Header bytes 0 to 5. -/
def headerBytes (f : Frame) : List Byte := [f.b0, f.b1, f.b2] ++ be16 f.tag ++ [byte f.body.length]

/-- The check a frame ought to carry, over its header and body (R156). -/
def frameCheck (f : Frame) : Word := crc (headerBytes f ++ f.body)

/-- R156: a complete frame is good when its check agrees. -/
def goodFrame (f : Frame) : Bool := f.check == frameCheck f

/-- A frame the part originates, with its check (R156, R167). -/
def makeFrame (cls origin dest : Nat) (tag : Word) (body : List Byte) : Frame :=
  let f : Frame := { b0 := byte cls, b1 := byte origin, b2 := byte dest, tag := tag, body := body, check := 0 }
  { f with check := frameCheck f }

/-- A frame from its bytes on the line: header, body, check (R155). -/
def parseFrame (bytes : List Byte) : Frame :=
  { b0 := byteAt bytes 0, b1 := byteAt bytes 1, b2 := byteAt bytes 2, tag := word16 bytes 3
    body := (bytes.drop 6).take (num8 bytes 5), check := word16 bytes (6 + num8 bytes 5) }

/-! ### Value codes (Table 11-2) -/

/-- Line mode codes. -/
def modeCode : LineMode → Nat
  | .stop => 0
  | .bypass => 1
  | .run => 2

/-- Board presence codes. -/
def boardCode : Board → Nat
  | .none => 0
  | .present => 1
  | .unscanned => 2

/-- Scan state codes, absent 0xFF. -/
def scanCode : Option ScanState → Byte
  | .none => 0xFF
  | .some .opened => 0
  | .some .complete => 1
  | .some .partialScan => 2

/-- Optimization state codes. -/
def optStateCode : OptState → Nat
  | .none => 0
  | .waiting => 1
  | .running => 2
  | .decided => 3
  | .stale => 4
  | .skipped => 5
  | .fault => 6

/-- Commitment kind codes. -/
def kindCode : CommitKind → Nat
  | .piece => 1
  | .cull => 2
  | .reject => 3
  | .bypass => 4
  | .recycle => 5

/-- Decision kind codes. -/
def bodyCode : DecisionBody → Nat
  | .piece _ => 1
  | .cull => 2
  | .reject => 3

/-- Recycle cause codes, absent 0xFF. -/
def causeCode : Option RecycleCause → Byte
  | .none => 0xFF
  | .some .unscanned => 1
  | .some .noBuffer => 2
  | .some .partialScan => 3
  | .some .skipped => 4
  | .some .lateDecision => 5
  | .some .fault => 6
  | .some .cutConflict => 7

/-- Set id codes, absent 0xFF. -/
def setCode : Option SetId → Byte
  | .none => 0xFF
  | .some .s0 => 0
  | .some .s1 => 1

/-- The set a byte names, if any. -/
def setOf (n : Nat) : Option SetId := if n = 0 then .some .s0 else if n = 1 then .some .s1 else .none

/-- Alert kind codes. -/
def alertCode : AlertKind → Nat
  | .bin => 1
  | .port => 2
  | .chain => 3
  | .ecc => 4
  | .scanLoss => 5

/-- Link state codes. -/
def linkCode : LinkState → Nat
  | .down => 0
  | .up => 1

/-- Error state codes. -/
def errCode : ErrorState → Nat
  | .clean => 0
  | .noisy => 1
  | .failed => 2

/-- Requester codes. -/
def requesterCode : Requester → Nat
  | .scrubber => 0
  | .commit => 1
  | .optimizer => 2
  | .management => 3

/-- The result codes of Table 10-3. -/
inductive Result where
  | done
  | clamped
  | badArg
  | wrongMode
  | inUse
  | protectedEntry
  | unmapped
  | ecc
  | noSet
  | unknown
  | full
  | badRequest
  deriving DecidableEq, Repr

/-- Result codes (Table 11-2). -/
def resultCode : Result → Nat
  | .done => 0
  | .clamped => 1
  | .badArg => 2
  | .wrongMode => 3
  | .inUse => 4
  | .protectedEntry => 5
  | .unmapped => 6
  | .ecc => 7
  | .noSet => 8
  | .unknown => 9
  | .full => 10
  | .badRequest => 11

/-- The mark replies of Table 4-2, and DROPPED (R81). -/
inductive MarkReply where
  | accepted
  | unknownLug
  | late
  | noBoard
  | badMark
  | full
  | dropped
  deriving DecidableEq, Repr

/-- Mark reply codes (Table 11-2). -/
def markReplyCode : MarkReply → Nat
  | .accepted => 0
  | .unknownLug => 1
  | .late => 2
  | .noBoard => 3
  | .badMark => 4
  | .full => 5
  | .dropped => 6

/-- Filter field codes (Table 11-2): destination. -/
def destCode : DestSel → Nat
  | .any => 0
  | .own => 1

/-- Filter field codes: port. -/
def portSelCode : PortSel → Nat
  | .u => 0
  | .d => 1
  | .either => 2

/-- Filter field codes: action. -/
def actionCode : FilterAction → Nat
  | .consume => 0
  | .consumeForward => 1
  | .forward => 2
  | .drop => 3

/-- Filter field codes: queue. -/
def queueCode : QueueId → Nat
  | .scan => 0
  | .mark => 1
  | .mgmt => 2
  | .sorter => 3

/-- The destination a code names. -/
def destOf : Nat → Option DestSel
  | 0 => .some .any
  | 1 => .some .own
  | _ => .none

/-- The port selection a code names. -/
def portSelOf : Nat → Option PortSel
  | 0 => .some .u
  | 1 => .some .d
  | 2 => .some .either
  | _ => .none

/-- The action a code names. -/
def actionOf : Nat → Option FilterAction
  | 0 => .some .consume
  | 1 => .some .consumeForward
  | 2 => .some .forward
  | 3 => .some .drop
  | _ => .none

/-- The queue a code names. -/
def queueOf : Nat → Option QueueId
  | 0 => .some .scan
  | 1 => .some .mark
  | 2 => .some .mgmt
  | 3 => .some .sorter
  | _ => .none

/-- The line mode a code names. -/
def modeOf : Nat → Option LineMode
  | 0 => .some .stop
  | 1 => .some .bypass
  | 2 => .some .run
  | _ => .none

end Sys2Proof.Machine
end

