-- ==== Sys2Proof/Machine/Flags.lean ====
section
/-! DEFINITION. The flags and conditions the part computes from its state: error states of a port, pending
alerts, pages in use, and the status word that leads every management reply. -/

namespace Sys2Proof.Machine

open Sys2Proof

/-! ### Ports (R158, R159) -/

/-- The state of a port. -/
def portOf (l : LinkUnit) : Port → PortState
  | .U => l.u
  | .D => l.d

/-- R158: the receive error count after a malformed or bad frame, clamped at 255. -/
def errUp (n : Nat) : Nat := min 255 (n + 8)

/-- R158: the receive error count after a good frame, clamped at 0. -/
def errDown (n : Nat) : Nat := n - 1

/-- R159, Table 9-2: the error state judged against the count after a change. -/
def judgeError (before : ErrorState) (count : Nat) : ErrorState :=
  match before with
  | .clean => if 192 ≤ count then .failed else if 96 ≤ count then .noisy else .clean
  | .noisy => if 192 ≤ count then .failed else if 64 ≤ count then .noisy else .clean
  | .failed => if 64 ≤ count then .failed else .clean

/-! ### Alerts (R170) -/

/-- Whether a transmit queue entry is the ALERT of a kind. -/
def TxItem.isAlert (k : AlertKind) : TxItem → Bool
  | .alert k' _ => k' == k
  | .frame _ _ => false

/-- R170: the alert-pending flag of a kind: its ALERT waits in D's transmit queue. -/
def alertPending (s : State) (k : AlertKind) : Bool := s.lu.d.tx.any (TxItem.isAlert k)

/-- R170, R180: the one alert-pending flag of the status word. -/
def anyAlertPending (s : State) : Bool :=
  alertPending s .bin || alertPending s .port || alertPending s .chain || alertPending s .ecc
    || alertPending s .scanLoss

/-- R41: the number of slots holding an OPEN scan with LOSS set. -/
def openWithLoss (s : State) : Nat :=
  s.ring.toList.countP fun sl => sl.scan == .some .opened && sl.loss

/-! ### Page maps (R142, R143) -/

/-- The page map of a set. -/
def mapOf (t : TableMemory) : SetId → Vector (Option MapEntry) 10
  | .s0 => t.map0
  | .s1 => t.map1

/-- Entry k of a set: none when unmapped. -/
def entryOf (t : TableMemory) (sid : SetId) (k : Nat) : Option MapEntry := ((mapOf t sid)[k]?).getD .none

/-- R134, R142: the physical index of word w of logical page k through a set, if the entry is mapped. -/
def physOf (t : TableMemory) (sid : SetId) (k w : Nat) : Option Nat :=
  (entryOf t sid k).map fun e => e.page * 256 + w

/-- The set latched by the running job (R49). -/
def latchedSet (s : State) : Option SetId := s.opt.job.map (·.set)

/-- A set's mapped entries name a physical page. -/
def namesPage (t : TableMemory) (sid : SetId) (page : Nat) : Bool :=
  (mapOf t sid).toList.any fun e => e.any fun m => m.page == page

/-- R143: a physical page is in use. -/
def pageInUse (s : State) (page : Nat) : Bool :=
  s.tm.active.any (fun sid => namesPage s.tm sid page)
    || (latchedSet s).any fun sid => namesPage s.tm sid page

/-! ### The status word (R180, Table 11-7) -/

/-- The status word as the state stands. -/
def statusWord (s : State) : Word :=
  let bit (b : Bool) (i : Nat) : Word := if b then 1#16 <<< i else 0
  let active : Word := match s.tm.active with
    | .some .s0 => 0
    | .some .s1 => 1
    | .none => 3
  BitVec.ofNat 16 (modeCode s.ct.mode) ||| (active <<< 2)
    ||| bit (s.lu.u.link == .up) 4 ||| bit (s.lu.d.link == .up) 5
    ||| (BitVec.ofNat 16 (errCode s.lu.u.errState) <<< 6) ||| (BitVec.ofNat 16 (errCode s.lu.d.errState) <<< 8)
    ||| bit s.opt.lastQuick 10 ||| bit (anyAlertPending s) 11 ||| bit s.tm.record.isSome 12
    ||| bit s.ct.starting 13

end Sys2Proof.Machine
end

