-- ==== Sys2Proof/Machine/Transmit.lean ====
section
/-! DEFINITION. The transmit side of the Link Unit (sections 9.6, 9.7): queuing, displacement, transmission
starts, alerts and their bodies. -/

namespace Sys2Proof.Machine

open Sys2Proof

/-- Updates one port. -/
def updPort (s : State) (p : Port) (f : PortState → PortState) : State :=
  s.updLu fun l => match p with
    | .U => { l with u := f l.u }
    | .D => { l with d := f l.d }

/-- The priority of a queue entry (Table 9-8). -/
def TxItem.prio : TxItem → Nat
  | .frame n _ => n.val
  | .alert _ _ => 2

/-- The error log in the ECC layout of Table 11-5. -/
def eccBytes (t : TableMemory) : List Byte :=
  (match t.record with
    | .none => [0, 0xFF, 0xFF, 0xFF]
    | .some r => [1, byte r.page, byte r.word, byte (requesterCode r.who)])
    ++ be16 t.corrected ++ be16 t.uncorrected

/-- One port's part of a PORT alert (Table 11-5). -/
def portAlertBytes (p : PortState) : List Byte :=
  [byte (linkCode p.link), byte (errCode p.errState), byte p.errCount]

/-- R171, Table 11-5: the contents of an ALERT, built from the state as it stands. -/
def alertContents (s : State) : AlertKind → List Byte
  | .bin => binSetBytes (fullSet s.bos) ++ binSetBytes (outSet s.bos)
  | .port => portAlertBytes s.lu.u ++ portAlertBytes s.lu.d ++ be16 s.lu.sorterDropped
  | .chain => be16 s.ct.spurious ++ be16 s.ct.slip ++ be16 s.ct.missing ++ be16 s.ct.seq
      ++ [byte (modeCode s.ct.mode)]
  | .ecc => eccBytes s.tm
  | .scanLoss => be16 s.sa.counts.scanLoss ++ [byte (openWithLoss s)] ++ be16 s.ct.seq

/-- A frame the part originates: own address as origin (R167). -/
def ownFrame (s : State) (cls dest : Nat) (tag : Word) (body : List Byte) : Frame :=
  makeFrame cls s.settings.ownAddress dest tag body

/-- R168, R171: the frame that goes out for a queue entry; an ALERT's body is built now. So is its header: its
origin is the own address at the transmission start, its tag a free value: the model's choices
(notes/assumptions/49.md and 16.md). -/
def renderTx (s : State) : TxItem → Frame
  | .frame _ f => f
  | .alert k n => ownFrame s 40 31 (Config.alertTag s.freeCount)
      ([byte (alertCode k), byte n] ++ alertContents s k)

/-- The smallest priority number in a queue, at most `m`. -/
def minPrio (m : Nat) (q : List TxItem) : Nat := q.foldl (fun a x => min a x.prio) m

/-- The largest priority number in a queue. -/
def maxPrio (q : List TxItem) : Nat := q.foldl (fun a x => max a x.prio) 0

/-- Removes the first entry of a priority: the oldest. -/
def takeOldest (prio : Nat) : List TxItem → Option (TxItem × List TxItem)
  | [] => .none
  | x :: q => if x.prio = prio then .some (x, q) else (takeOldest prio q).map fun r => (r.1, x :: r.2)

/-- Removes the last entry of a priority: the newest (R169). -/
def dropNewest (prio : Nat) (q : List TxItem) : List TxItem :=
  match takeOldest prio q.reverse with
  | .none => q
  | .some (_, rest) => rest.reverse

/-- R168: the entry to send next: the oldest of the smallest priority number. -/
def nextTx (q : List TxItem) : Option (TxItem × List TxItem) := takeOldest (minPrio 3 q) q

/-- R168: a transmission start, when the port is UP, the transmitter idle and the queue not empty. -/
def startTx (s : State) (p : Port) : State :=
  let ps := portOf s.lu p
  if ps.link = .up ∧ ps.sending = .none then
    match nextTx ps.tx with
    | .none => s
    | .some (x, rest) =>
      -- the entry has left the queue when an ALERT's body is built
      let s1 := updPort s p fun q => { q with tx := rest }
      let s2 := updPort s1 p fun q => { q with sending := .some (renderTx s1 x) }
      match x with
      | .frame _ _ => s2
      | .alert _ _ => { s2 with freeCount := s2.freeCount + 1 }
  else s

/-- R172: one more frame lost in a priority. -/
def countDrop (ps : PortState) (prio : Nat) : PortState :=
  { ps with drops := ps.drops.setIfInBounds prio (satInc ((ps.drops[prio]?).getD 0)) }

/-- R167, R169: a frame joins a transmit queue, displacing the newest frame of the largest priority number
from a full queue, or is dropped. -/
def joinTx (ps : PortState) (x : TxItem) : PortState :=
  if ps.tx.length < txCapacity then { ps with tx := ps.tx ++ [x] }
  else if x.prio < maxPrio ps.tx then
    countDrop { ps with tx := dropNewest (maxPrio ps.tx) ps.tx ++ [x] } (maxPrio ps.tx)
  else countDrop ps x.prio

/-- R167, R168: a frame is queued on a port, and sent at once if the port is UP and idle. -/
def enqueue (s : State) (p : Port) (x : TxItem) : State := startTx (updPort s p fun ps => joinTx ps x) p

/-- Adds one to a merge counter. -/
def PerAlert.inc (c : PerAlert) : AlertKind → PerAlert
  | .bin => { c with bin := satInc c.bin }
  | .port => { c with port := satInc c.port }
  | .chain => { c with chain := satInc c.chain }
  | .ecc => { c with ecc := satInc c.ecc }
  | .scanLoss => { c with scanLoss := satInc c.scanLoss }

/-- R170: the occurrence count of the waiting ALERT of a kind increases by 1, up to 255. -/
def bumpAlert (k : AlertKind) (x : TxItem) : TxItem :=
  match x with
  | .alert k' n => if k' = k then .alert k' (min 255 (n + 1)) else x
  | .frame _ _ => x

/-- R170: an occurrence of an alert kind: merged into the waiting ALERT, or a new ALERT queued on D. -/
def raiseAlert (s : State) (k : AlertKind) : State :=
  if alertPending s k then
    s.updLu fun l => { l with d := { l.d with tx := l.d.tx.map (bumpAlert k) }, merged := l.merged.inc k }
  else enqueue s .D (.alert k 1)

/-- R105: an event at the Bin and Order Store raises a BIN alert when it leaves either set different. -/
def storeEvent (s : State) (f : BinStore → BinStore) : State :=
  let s' := s.updBos f
  if fullSet s'.bos = fullSet s.bos ∧ outSet s'.bos = outSet s.bos then s' else raiseAlert s' .bin

end Sys2Proof.Machine
end

