-- ==== Sys2Proof/Machine/ChainTracker.lean ====
section
/-! DEFINITION. The Chain Tracker (chapter 1): counts, index events, the advance, and the meanings of its
commands. -/

namespace Sys2Proof.Machine

open Sys2Proof

/-- R6: port U is, at this moment, DOWN or FAILED. -/
def uUnusable (s : State) : Bool := s.lu.u.link == .down || s.lu.u.errState == .failed

/-- R6: the slot record of a new lug. During STARTING the mode is STOP (R13). -/
def newSlot (s : State) (seq : LugSeq) : Slot :=
  let lost := s.ct.mode == .run && uUnusable s
  { Slot.empty seq with
    origin := s.ct.mode
    board := if lost then .unscanned else .none
    cause := if lost then .some .unscanned else .none }

/-- R8: the body of a LUG frame. -/
def lugBody (s : State) (synthesized : Bool) (sl : Slot) : List Byte :=
  [byte (modeCode s.ct.mode), flagByte synthesized, byte (boardCode sl.board)]

/-- R7, R9: the arrivals of an advance to `seq`; a switch point the step has not handed goes with it. -/
def handArrivals (g : Settings) (seq : LugSeq) (switchDue : Bool) (h : HandedOver) : HandedOver :=
  { h with
    deadlines := h.deadlines ++ [lugAt seq (g.dScanwin + 1)]
    locks := h.locks ++ [lugAt seq g.dLock]
    optLocks := h.optLocks ++ [lugAt seq g.dLock]
    switches := h.switches ++ (if switchDue then [lugAt seq g.dTrim] else [])
    sorts := h.sorts ++ [lugAt seq g.dSort] }

/-- R5: the advance, accepted or synthesized. A map buffer that the slot overwritten still holds joins the free
list, so that none is lost (notes/assumptions/40.md). -/
def advance (s : State) (synthesized : Bool) : State :=
  let seq := s.ct.seq + 1
  let sl := newSlot s seq
  let switchDue := !s.ct.switchHanded
  let s1 := s.updCt fun c => { c with c := 0, seq := seq, switchHanded := false }
  let s2 := setSlot (freeBuffer s1 seq) seq sl
  let s3 := enqueue s2 .U (.frame 0 (ownFrame s2 12 31 seq (lugBody s2 synthesized sl)))
  s3.updHanded (handArrivals s3.settings seq switchDue)

/-- R2: a missing index: counted, a CHAIN alert, the advance. -/
def missingIndex (s : State) : State :=
  advance (raiseAlert (s.updCt fun c => { c with missing := satInc c.missing }) .chain) true

/-- R1: the count hands the switch point of this lug step, to the lug at D_trim − 1 (R96). -/
def handSwitchByCount (s : State) : State :=
  if 0 < s.settings.lead ∧ s.ct.c + s.settings.lead = s.settings.countsPerStep ∧ s.ct.switchHanded = false then
    (s.updCt fun c => { c with switchHanded := true }).updHanded fun h =>
      { h with switches := h.switches ++ [lugAt s.ct.seq (s.settings.dTrim - 1)] }
  else s

/-- R1: an encoder count event. -/
def countEvent (s : State) : State :=
  let s1 := handSwitchByCount (s.updCt fun c => { c with c := c.c + 1 })
  if s1.settings.countsPerStep + s1.settings.tol ≤ s1.ct.c then missingIndex s1 else s1

/-- R3: the slip test, 2 × |c − P| > tol. -/
def slipped (c p tol : Nat) : Bool := decide (tol < 2 * ((c : Int) - (p : Int)).natAbs)

/-- R3: an accepted index: a slip counted and alerted if the test holds, then the advance. -/
def acceptIndex (s : State) : State :=
  if slipped s.ct.c s.settings.countsPerStep s.settings.tol then
    advance (raiseAlert (s.updCt fun c => { c with slip := satInc c.slip }) .chain) false
  else advance s false

/-- R3: a lug-index event. -/
def indexEvent (s : State) : State :=
  if s.ct.c + s.settings.tol < s.settings.countsPerStep then
    s.updCt fun c => { c with spurious := satInc c.spurious }
  else acceptIndex s

/-! ### Meanings -/

/-- ENCODER_COUNT (R1). -/
def execEncoderCount (s : State) : Host.Outcome State Fault Refusal := taken s countEvent

/-- MISSING_INDEX (R2): the count event that finds no index by P + tol (notes/assumptions/6.md). -/
def execMissingIndex (s : State) : Host.Outcome State Fault Refusal :=
  taken s fun s => if s.settings.countsPerStep + s.settings.tol ≤ s.ct.c + 1 then countEvent s else s

/-- LUG_INDEX (R3). -/
def execLugIndex (s : State) : Host.Outcome State Fault Refusal := taken s indexEvent

end Sys2Proof.Machine
end

