-- ==== Sys2Proof/Machine/Memory.lean ====
section
/-! DEFINITION. Table Memory (chapter 8): words and their check, the error log, the arbiter and the scrubber. -/

namespace Sys2Proof.Machine

open Sys2Proof

/-! ### Words (R134, R135) -/

/-- The word an unlisted physical index holds: 0 with correct check bits (R152). -/
def blankWord : StoredWord := { written := 0, changed := 0 }

/-- A word written whole: the value with fresh check bits (R135). -/
def freshWord (v : Word) : StoredWord := { written := v, changed := 0 }

/-- The stored word at a physical index. -/
def storedAt (t : TableMemory) (i : Nat) : StoredWord := sparseGet blankWord t.words i

/-- Stores a word at a physical index. -/
def storeWord (t : TableMemory) (i : Nat) (w : StoredWord) : TableMemory :=
  { t with words := sparseSet blankWord t.words i w }

/-- R135: the check of a stored word. -/
def checkWord (w : StoredWord) : CheckResult :=
  match popCount w.changed with
  | 0 => .clean w.written
  | 1 => .single w.written
  | 2 => .double
  | _ => Config.checkBeyondTwo w.written w.changed

/-- The check of the word at a physical index. -/
def checkAt (s : State) (i : Nat) : CheckResult := checkWord (storedAt s.tm i)

/-- R135, R136: what a Double result leaves in the error log. -/
def logDouble (t : TableMemory) (who : Requester) (i : Nat) : TableMemory :=
  { t with
    uncorrected := satInc t.uncorrected
    record := match t.record with
      | .none => .some { page := i / 256, word := i % 256, who := who }
      | .some r => .some r }

/-- R135, R136, R137: the error log and the ECC alert after a read of physical index i. -/
def noteRead (s : State) (who : Requester) (i : Nat) : State :=
  match checkAt s i with
  | .clean _ => s
  | .single _ => s.updTm fun t => { t with corrected := satInc t.corrected }
  | .double => raiseAlert (s.updTm fun t => logDouble t who i) .ecc

/-- R148: the word a byte write leaves: the named half replaced, the other half kept. -/
def mergeHalf (half : Half) (b : Byte) (v : Word) : Word :=
  match half with
  | .high => b ++ v.extractLsb' 0 8
  | .low => v.extractLsb' 8 8 ++ b

/-! ### The arbiter (R138, R139) -/

/-- R138, Table 8-1: the waiting request of the highest rank, with the memory once it is granted. -/
def grantNext (t : TableMemory) : TableMemory :=
  if t.visitDue then
    { t with
      visitDue := false
      access := .some { who := .scrubber, index := t.scrubPos.toNat, kind := .scrub, wanted := true } }
  else match t.waitCommit with
    | .some i =>
      { t with waitCommit := .none, access := .some { who := .commit, index := i, kind := .read, wanted := true } }
    | .none => match t.waitOpt with
      | .some i =>
        { t with waitOpt := .none, access := .some { who := .optimizer, index := i, kind := .read, wanted := true } }
      | .none => match t.waitMgmt with
        | .some (i, k) =>
          { t with waitMgmt := .none, access := .some { who := .management, index := i, kind := k, wanted := true } }
        | .none => t

/-- R138: a grant, if the memory is idle; none is made while the sweep runs (R152). -/
def grant (s : State) : State :=
  if s.tm.access = .none ∧ s.ct.starting = false then s.updTm grantNext else s

/-- R138: the access in progress ends and the next waiting request is granted, in one event. -/
def endAccess (s : State) : State := grant (s.updTm fun t => { t with access := .none })

/-- R138: the Commit Unit asks for a word. -/
def requestCommit (s : State) (i : Nat) : State := grant (s.updTm fun t => { t with waitCommit := .some i })

/-- R138: the running job asks for a word. -/
def requestOpt (s : State) (i : Nat) : State := grant (s.updTm fun t => { t with waitOpt := .some i })

/-- R138: the Management Handler asks for an access. -/
def requestMgmt (s : State) (i : Nat) (k : AccessKind) : State :=
  grant (s.updTm fun t => { t with waitMgmt := .some (i, k) })

/-- R139: an access in progress whose requester is abandoned runs on, its value discarded. -/
def disown (who : Requester) (a : Option Access) : Option Access :=
  a.map fun x => if x.who = who then { x with wanted := false } else x

/-- R139: the Trim Optimizer's waiting request is withdrawn, its access in progress disowned. -/
def abandonOptAccess (t : TableMemory) : TableMemory :=
  { t with waitOpt := .none, access := disown .optimizer t.access }

/-- R139: the Commit Unit's waiting request is withdrawn, its access in progress disowned. -/
def abandonCommitAccess (t : TableMemory) : TableMemory :=
  { t with waitCommit := .none, access := disown .commit t.access }

/-! ### The scrubber (R140, R141) -/

/-- R141: the visit of the access in progress: the check, the write-back of a corrected Single, the position
moved on. -/
def visitWord (s : State) (i : Nat) : State :=
  let s1 := noteRead s .scrubber i
  let s2 := match checkAt s i with
    | .single v => s1.updTm fun t => storeWord t i (freshWord v)
    | .clean _ | .double => s1
  s2.updTm fun t => { t with scrubPos := t.scrubPos + 1 }

/-- SCRUB_INTERVAL_EXPIRY (R140): the interval timer expires, when it runs: the visit is due, and the next
interval starts with the setting in force. -/
def execScrubIntervalExpiry (s : State) : Host.Outcome State Fault Refusal :=
  taken s fun s =>
    match s.tm.scrubTimer with
    | .none => s
    | .some _ =>
      grant (s.updTm fun t => { t with visitDue := true, scrubTimer := .some s.settings.scrubInterval })

/-- SCRUB_VISIT (R141): the scrub visit in progress completes. -/
def execScrubVisit (s : State) : Host.Outcome State Fault Refusal :=
  taken s fun s =>
    match s.tm.access with
    | .some a => if a.kind = .scrub then endAccess (visitWord s a.index) else s
    | .none => s

end Sys2Proof.Machine
end

