-- ==== Sys2Proof/Machine/Grading.lean ====
section
/-! DEFINITION. The arithmetic of a job (sections 3.3, 3.4): candidates, counts, grade rows, prices, bins and
the choice, over the table words a job has read (keyed by logical page × 256 + word). -/

namespace Sys2Proof.Machine

open Sys2Proof

/-- Table 0-2: the station of saw k. -/
def sawStation (k : Nat) : Nat := 12 + 24 * k

/-- R53, R88: some station of a cut list lies in the piece of a pair. -/
def cutConflict (cuts : List Nat) (i j : Nat) : Bool :=
  cuts.any fun x => decide (sawStation i ≤ x) && decide (x < sawStation j)

/-- R53: the candidates left after exclusion, ascending. -/
def candidates (len : Nat) (quick : Bool) (cuts : List Nat) : List (Nat × Nat) :=
  (List.range 11).flatMap fun i =>
    ((List.range 11).filter fun j =>
      decide (i < j) && decide (sawStation j ≤ len) && (!quick || i == 0) && !cutConflict cuts i j).map
      fun j => (i, j)

/-- R54: N_c, the cells of class c at stations a ≤ s < b, over all zones (c is not 0). -/
def classCount (cells : Sparse (BitVec 4)) (a b c : Nat) : Nat :=
  cells.countP fun x => x.2.toNat == c && decide (a ≤ x.1 % 264) && decide (x.1 % 264 < b)

/-- A word a job has read; 0 for one it has not. -/
def readWord (words : List (Nat × Word)) (k : Nat) : Word := (words.lookup k).getD 0

/-- Table 11-8, L1: the first word of grade row g. -/
def rowBase (g : Nat) : Nat := 256 + 32 * (g - 1)

/-- Table 11-8: the enabled flag of row g. -/
def rowEnabled (words : List (Nat × Word)) (g : Nat) : Bool := (readWord words (rowBase g)).msb

/-- Table 11-8: E[g], above 48 taken as 48. -/
def rowEndZone (words : List (Nat × Word)) (g : Nat) : Nat :=
  min 48 ((readWord words (rowBase g)).extractLsb' 0 8).toNat

/-- Table 11-8: A[g][c], odd classes in high bytes, even classes in low bytes. -/
def rowAllowance (words : List (Nat × Word)) (g c : Nat) : Nat :=
  let w := readWord words (rowBase g + (c + 1) / 2)
  if c % 2 = 1 then (w.extractLsb' 8 8).toNat else (w.extractLsb' 0 8).toNat

/-- Table 11-8: class c is in Z[g] (bit 0 is not read). -/
def rowEndClass (words : List (Nat × Word)) (g c : Nat) : Bool :=
  c != 0 && (readWord words (rowBase g + 9)).getLsbD c

/-- R55: row g passes the count test for the piece [a, b) of length code n. -/
def passesCount (words : List (Nat × Word)) (cells : Sparse (BitVec 4)) (g a b n : Nat) : Bool :=
  (List.range' 1 15).all fun c =>
    rowAllowance words g c == 255 || decide (classCount cells a b c ≤ rowAllowance words g c * n / 2)

/-- R56: row g passes the end-zone test for the piece [a, b). -/
def passesEndZone (words : List (Nat × Word)) (cells : Sparse (BitVec 4)) (g a b : Nat) : Bool :=
  let e := rowEndZone words g
  cells.all fun x =>
    let st := x.1 % 264
    !(rowEndClass words g x.2.toNat
      && ((decide (a ≤ st) && decide (st < min (a + e) b)) || (decide (max (b - e) a ≤ st) && decide (st < b))))

/-- R57: the computed grade of a candidate. -/
def computedGrade (words : List (Nat × Word)) (cells : Sparse (BitVec 4)) (i j : Nat) : Option Nat :=
  (List.range' 1 8).find? fun g =>
    rowEnabled words g
      && passesCount words cells g (sawStation i) (sawStation j) (j - i)
      && passesEndZone words cells g (sawStation i) (sawStation j)

/-- R57: the final grade, the larger of the computed grade and the cap. -/
def finalGrade (g : Nat) (cap : Option Nat) : Nat := max g (cap.getD 0)

/-- R58: the product index. -/
def productOf (wc grade n : Nat) : Nat := (wc * 8 + (grade - 1)) * 10 + (n - 1)

/-- Table 11-8, L2 to L6: the key of PR[p], or of PQ[p] when p is exhausted (R58). -/
def priceKey (snap : Snapshot) (p : Nat) : Nat := 512 + 2 * p + (if p ∈ snap.exhausted then 1 else 0)

/-- R58: the price of product p. -/
def priceOf (words : List (Nat × Word)) (snap : Snapshot) (p : Nat) : Nat :=
  (readWord words (priceKey snap p)).toNat

/-- Table 11-8, L7 to L9: the key of the sort map word of product p. -/
def sortKey (p : Nat) : Nat := 1792 + p

/-- R59: a bin number of a sort map word; 48 to 255 is none. -/
def binOfByte (b : Byte) : Option Nat := if b.toNat < 48 then .some b.toNat else .none

/-- R59, R89: the primary and alternate bins of a sort map word. -/
def binsOfWord (w : Word) : Option Nat × Option Nat :=
  (binOfByte (w.extractLsb' 8 8), binOfByte (w.extractLsb' 0 8))

/-- R59: the chosen bin, if any, with the alternate bin recorded with it. -/
def chooseBin (snap : Snapshot) (w : Word) : Option (Nat × Option Nat) :=
  let isOpen (b : Option Nat) : Bool := b.any fun n => n ∈ snap.openBins
  match binsOfWord w with
  | (.some p, alt) =>
    if isOpen (.some p) then .some (p, alt)
    else if isOpen alt then alt.map fun a => (a, .none) else .none
  | (.none, alt) => if isOpen alt then alt.map fun a => (a, .none) else .none

/-- A graded candidate: the pair with its computed grade, final grade and product (R57, R58). -/
structure Graded where
  i : Nat
  j : Nat
  grade : Nat
  final : Nat
  product : Nat
  deriving DecidableEq, Repr

/-- R53 to R58: the graded candidates of a job over its slot's length, width class and map cells. -/
def gradedCandidates (job : Job) (len wc : Nat) (cells : Sparse (BitVec 4)) : List Graded :=
  (candidates len job.quick job.cuts).filterMap fun c =>
    (computedGrade job.words cells c.1 c.2).map fun g =>
      let f := finalGrade g job.cap
      { i := c.1, j := c.2, grade := g, final := f, product := productOf wc f (c.2 - c.1) }

/-- R58 to R60: a graded candidate made eligible by a nonzero price and a chosen bin. -/
def eligible (job : Job) (c : Graded) : Option PieceData :=
  let price := priceOf job.words job.snapshot c.product
  if price = 0 then .none
  else (chooseBin job.snapshot (readWord job.words (sortKey c.product))).map fun b =>
    { i := c.i, j := c.j, grade := c.grade, final := c.final, product := c.product, value := price,
      chosen := .some b.1, alternate := b.2 }

/-- R60: a piece is chosen before another: higher price, then larger n, then smaller i. -/
def better (x y : PieceData) : Bool :=
  decide (y.value < x.value)
    || (x.value == y.value
      && (decide (y.j - y.i < x.j - x.i) || (x.j - x.i == y.j - y.i && decide (x.i < y.i))))

/-- R60: the piece chosen among the eligible candidates. -/
def choosePiece (l : List PieceData) : Option PieceData :=
  l.foldl (fun best x => match best with
    | .none => .some x
    | .some y => if better x y then .some x else .some y) .none

/-- R60, R61: the decision of a job, in the form it is written. -/
def decisionOf (job : Job) (len wc : Nat) (cells : Sparse (BitVec 4)) : Decision :=
  let body := match choosePiece ((gradedCandidates job len wc cells).filterMap (eligible job)) with
    | .some p => .piece p
    | .none => .cull
  { body := body, wc := wc, set := .some job.set, quick := job.quick, partialFlag := job.partialFlag,
    revision := job.revision }

/-! ### The words a job reads (R52) -/

/-- The first key of a list that the job has not read. -/
def firstUnread (words : List (Nat × Word)) (keys : List Nat) : Option Nat :=
  keys.find? fun k => (words.lookup k).isNone

/-- L1: the first words of the eight rows. -/
def rowHeadKeys : List Nat := (List.range' 1 8).map rowBase

/-- L1: the allowances and end-zone classes of the enabled rows. -/
def rowBodyKeys (words : List (Nat × Word)) : List Nat :=
  (List.range' 1 8).flatMap fun g =>
    if rowEnabled words g then (List.range' 1 9).map fun k => rowBase g + k else []

/-- R52: the next word the job needs, in ascending order of what its grading asks for
(notes/assumptions/19.md); none when it has every word. -/
def nextWord (job : Job) (len wc : Nat) (cells : Sparse (BitVec 4)) : Option Nat :=
  match firstUnread job.words rowHeadKeys with
  | .some k => .some k
  | .none => match firstUnread job.words (rowBodyKeys job.words) with
    | .some k => .some k
    | .none =>
      let products := (gradedCandidates job len wc cells).map (·.product)
      match firstUnread job.words (products.map (priceKey job.snapshot)) with
      | .some k => .some k
      | .none => firstUnread job.words
          ((products.filter fun p => priceOf job.words job.snapshot p != 0).map sortKey)

end Sys2Proof.Machine
end

