-- ==== Sys2Proof/Machine/Optimizer.lean ====
section
/-! DEFINITION. The Trim Optimizer (chapter 3): queue, offers, job starts, reads, completion, abandonment, and
the meanings of its commands. -/

namespace Sys2Proof.Machine

open Sys2Proof

/-! ### The map a job reads (R49, R54) -/

/-- The cells of a slot's map buffer; every cell clear for a slot that holds none. A board holds its buffer until
its lock (R28), so a job that starts below D_lock reads a buffer. DESIGN CHOICE: a lug still queued at D_lock, its
buffer freed by the Commit Unit's lock before TO has taken its own, may be started by another job's completion; the
spec does not say what map that job reads (R49), and here it reads a clear one (notes/assumptions/51.md). -/
def slotCells (s : State) (lug : LugSeq) : Sparse (BitVec 4) :=
  match (slotAt s lug).buffer with
  | .some b => (s.sa.buffers[b]?).getD []
  | .none => []

/-- R52: the next word the running job needs. -/
def jobNext (job : Job) : Option Nat := nextWord job job.len job.wc job.cells

/-- R52, R138: the running job asks for its next word, if it needs one. A word that no entry maps, which R52
rules out, is not asked for and ends the job's reading (notes/assumptions/21.md). -/
def askJobWord (s : State) : State :=
  match s.opt.job with
  | .none => s
  | .some job =>
    if job.uncorrectable then s
    else match jobNext job with
      | .none => s
      | .some k => match physOf s.tm job.set (k / 256) (k % 256) with
        | .some i => requestOpt (s.updOpt fun o => { o with job := .some { job with asked := .some k } }) i
        | .none => s.updOpt fun o => { o with job := .some { job with uncorrectable := true } }

/-! ### The queue (R44) -/

/-- R44: a lug joins ahead of the first entry whose offset is smaller than its own, or at the tail. -/
def insertByAge (off : LugSeq → Nat) (lug : LugSeq) : List LugSeq → List LugSeq
  | [] => [lug]
  | x :: q => if off x < off lug then lug :: x :: q else x :: insertByAge off lug q

/-- The lug is the running job's lug. -/
def isJobLug (s : State) (lug : LugSeq) : Bool := s.opt.job.any fun j => j.lug == lug

/-- R51: the quick flag of a job started on `lug` with `left` lugs remaining in the queue. -/
def quickFlag (s : State) (lug : LugSeq) (left : Nat) : Bool :=
  decide (s.settings.quick ≤ left) || offset s lug + 1 == s.settings.dLock

/-- R49, R50: the job latched at its start, with its own copy of what it reads of the slot and the map
(notes/assumptions/20.md, and 51.md for a slot whose buffer is already freed). -/
def latchJob (s : State) (lug : LugSeq) (left : Nat) : Job :=
  let sl := slotAt s lug
  { lug := lug, set := s.tm.active.getD .s0, revision := sl.revision, cap := sl.cap, cuts := sl.cuts,
    partialFlag := sl.partialFlag, quick := quickFlag s lug left, snapshot := takeSnapshot s.bos,
    len := sl.len, wc := sl.wc, cells := slotCells s lug, words := [], asked := .none, uncorrectable := false }

/-- R48: a job starts when TO is idle and the queue holds a lug; its first word is asked for. -/
def startJob (s : State) : State :=
  match s.opt.job, s.opt.queue with
  | .none, lug :: rest =>
    let job := latchJob s lug rest.length
    let s1 := s.updOpt fun o =>
      { o with
        queue := rest
        job := .some job
        lastQuick := job.quick
        counts := { o.counts with
          started := satInc o.counts.started
          quick := if job.quick then satInc o.counts.quick else o.counts.quick } }
    askJobWord (updSlot s1 lug fun sl => { sl with optState := .running })
  | _, _ => s

/-! ### Offers (R45, R46) -/

/-- R46: an offer that reaches a full queue. -/
def offerFull (s : State) (lug : LugSeq) : State :=
  match (slotAt s lug).optState with
  | .none =>
    (updSlot s lug fun sl => { sl with optState := .skipped, cause := .some .skipped }).updOptCounts
      fun c => { c with skipped := satInc c.skipped }
  | .stale => s.updOptCounts fun c => { c with staleOverflow := satInc c.staleOverflow }
  | .waiting | .running | .decided | .skipped | .fault => s

/-- R45, step 6: the lug joins the queue; a NONE slot becomes WAITING. -/
def joinQueue (s : State) (lug : LugSeq) : State :=
  let s1 := s.updOpt fun o => { o with queue := insertByAge (offset s) lug o.queue }
  if (slotAt s lug).optState = .none then updSlot s1 lug fun sl => { sl with optState := .waiting } else s1

/-- R45, step 4: a FAULT slot becomes STALE if it holds a decision, NONE if not. -/
def unFault (sl : Slot) : Slot :=
  if sl.optState = .fault then
    { sl with optState := if sl.decision.isSome then .stale else .none }
  else sl

/-- R45: an offer, judged in the rule's order, without the job start that may follow it. -/
def judgeOffer (s : State) (lug : LugSeq) : State :=
  let sl := slotAt s lug
  if s.settings.dLock ≤ offset s lug ∨ sl.origin ≠ .run ∨ sl.board ≠ .present then s
  else if lug ∈ s.opt.queue ∨ isJobLug s lug then s
  else if sl.optState = .decided ∨ sl.optState = .skipped then s
  else
    let s1 := updSlot s lug unFault
    if optCapacity ≤ s.opt.queue.length then offerFull s1 lug else joinQueue s1 lug

/-- R45, R48: an offer with the job start that may follow at once. -/
def offerLug (s : State) (lug : LugSeq) : State := startJob (judgeOffer s lug)

/-! ### Ending a job -/

/-- R47, R67: the running job, if any, ends without completion; its request is withdrawn. -/
def abandonJob (s : State) : State :=
  match s.opt.job with
  | .none => s
  | .some _ =>
    ((s.updOpt fun o => { o with job := .none }).updOptCounts
      fun c => { c with abandoned := satInc c.abandoned }).updTm abandonOptAccess

/-- R63: the slot's marks differ from those the job latched. -/
def marksDiffer (job : Job) (sl : Slot) : Bool :=
  sl.revision != job.revision || sl.reject || sl.cap != job.cap || sl.cuts != job.cuts

/-- R63: a discarded result: the slot set by what it holds, the lug offered unless rejected. -/
def discardResult (s : State) (lug : LugSeq) : State :=
  let s := s.updOptCounts fun c => { c with discarded := satInc c.discarded }
  match (slotAt s lug).decision with
  | .some d =>
    if d.body = .reject then s
    else judgeOffer (updSlot s lug fun sl => { sl with optState := .stale }) lug
  | .none => judgeOffer (updSlot s lug fun sl => { sl with optState := .none }) lug

/-- R62 to R65: the outcome of a completed job, the optimizer already idle. -/
def jobOutcome (s : State) (job : Job) : State :=
  let sl := slotAt s job.lug
  if s.settings.dLock ≤ offset s job.lug then
    s.updOptCounts fun c => { c with abandoned := satInc c.abandoned }
  else if marksDiffer job sl then discardResult s job.lug
  else if job.uncorrectable then
    (updSlot s job.lug fun sl => { sl with optState := .fault }).updOptCounts
      fun c => { c with fault := satInc c.fault }
  else
    (updSlot s job.lug fun sl =>
      { sl with
        optState := .decided
        decision := .some (decisionOf job job.len job.wc job.cells) }).updOptCounts
      fun c => { c with decided := satInc c.decided }

/-- The running job waits for no word, and has every word it needs or an uncorrectable one (R52). -/
def jobReady (job : Job) : Bool :=
  job.asked.isNone && (job.uncorrectable || (jobNext job).isNone)

/-- R52: the result of the read asked for reaches the job. -/
def jobReceives (job : Job) (r : CheckResult) : Job :=
  match job.asked with
  | .none => job
  | .some k => match r with
    | .clean v | .single v => { job with words := (k, v) :: job.words, asked := .none }
    | .double => { job with uncorrectable := true, asked := .none }

/-- R52: the running job takes the result of its completed read. -/
def giveJobWord (s : State) (r : CheckResult) : State :=
  s.updOpt fun o => { o with job := o.job.map fun job => jobReceives job r }

/-! ### Meanings -/

/-- OFFER (R45). -/
def execOffer (lug : LugSeq) (s : State) : Host.Outcome State Fault Refusal :=
  taken s fun s => offerLug s lug

/-- OPTIMIZER_READ (R52, R138): the optimizer's read in progress completes; the next request is granted, the
job takes the result and asks for its next word. -/
def execOptimizerRead (s : State) : Host.Outcome State Fault Refusal :=
  taken s fun s =>
    match s.tm.access with
    | .some a =>
      if a.who = .optimizer then
        let s1 := endAccess (noteRead s .optimizer a.index)
        if a.wanted then askJobWord (giveJobWord s1 (checkAt s a.index)) else s1
      else s
    | .none => s

/-- JOB_COMPLETION (R62 to R65): the running job completes, and the next job starts if the queue holds a lug. -/
def execJobCompletion (s : State) : Host.Outcome State Fault Refusal :=
  taken s fun s =>
    match s.opt.job with
    | .none => s
    | .some job =>
      if jobReady job then startJob (jobOutcome (s.updOpt fun o => { o with job := .none }) job) else s

/-- R47: TO's lock arrival for a lug. -/
def optimizerLocks (s : State) (lug : LugSeq) : State :=
  if lug ∈ s.opt.queue then startJob (s.updOpt fun o => { o with queue := o.queue.filter (· != lug) })
  else if isJobLug s lug then startJob (abandonJob s)
  else startJob s

/-- OPTIMIZER_LOCK (R47): TO takes the oldest lock handed to it. -/
def execOptimizerLock (s : State) : Host.Outcome State Fault Refusal :=
  taken s fun s =>
    match s.handed.optLocks with
    | [] => s
    | lug :: rest => optimizerLocks (s.updHanded fun h => { h with optLocks := rest }) lug

end Sys2Proof.Machine
end

