-- ==== Sys2Proof/Machine/Commit.lean ====
section
/-! DEFINITION. The Commit Unit (chapter 5): lock, stale commits, commit actions, saw switching, sorting and
retirement, and the meanings of its commands. -/

namespace Sys2Proof.Machine

open Sys2Proof

/-! ### The commitment kind (R86 to R88) -/

/-- What the lock of a slot leads to: the kinds of Table 5-1, with the stale commits of R88 marked, and a
decision whose grade is lowered and whose bins are then read. -/
inductive LockCase where
  | empty
  | bypass
  | recycle (cause : Option RecycleCause) (stale : Bool)
  | reject
  | stands (d : Decision) (stale : Bool)
  | regrade (d : Decision)
  deriving DecidableEq, Repr

/-- R87, Table 5-2: the recycle cause of a slot with no decision. -/
def recycleCauseAtLock (sl : Slot) : Option RecycleCause :=
  match sl.optState with
  | .skipped => sl.cause
  | .fault => .some .fault
  | .running | .waiting | .none | .decided | .stale => .some .lateDecision

/-- R88, step 2: the decision at the cap's grade, its product recomputed; the bins are read by R89. -/
def regraded (d : Decision) (p : PieceData) (cap : Nat) : Decision :=
  { d with body := .piece { p with final := cap, product := productOf d.wc cap (p.j - p.i) } }

/-- R88: the stale commit rule. -/
def staleCommit (sl : Slot) (d : Decision) : LockCase :=
  match d.body with
  | .piece p =>
    if cutConflict sl.cuts p.i p.j then .recycle (.some .cutConflict) true
    else match sl.cap with
      | .some c => if p.final < c then .regrade (regraded d p c) else .stands d true
      | .none => .stands d true
  | .cull | .reject => .stands d true

/-- R86, Table 5-1: the commitment kind of a slot, by the first case that applies. -/
def lockCase (mode : LineMode) (sl : Slot) : LockCase :=
  if sl.origin = .stop then .empty
  else if sl.origin = .bypass ∨ mode = .bypass then .bypass
  else if sl.board = .none then .empty
  else if sl.board = .unscanned then .recycle sl.cause false
  else if sl.reject then .reject
  else match sl.decision with
    | .none => .recycle (recycleCauseAtLock sl) false
    | .some d =>
      if d.body = .reject then .recycle (recycleCauseAtLock sl) false
      else if sl.optState = .decided ∧ d.revision = sl.revision then .stands d false
      else staleCommit sl d

/-! ### Commit actions (R90 to R93) -/

/-- R106: asks of bins in turn; the first open bin takes the reservation. -/
def askBins (s : State) : List Nat → Option Nat × State
  | [] => (.none, s)
  | n :: rest =>
    if binOpen n (binAt s.bos n) then (.some n, storeEvent s fun b => reserveIn b n) else askBins s rest

/-- The three flags of a commitment that the decision does not carry (R93). -/
structure CommitFlags where
  stale : Bool
  catchDiversion : Bool
  overQuota : Bool
  deriving DecidableEq, Repr

/-- A byte of flags, the first in bit 0. -/
def flagBits (l : List Bool) : Byte :=
  l.foldr (fun b acc => (acc <<< 1) ||| (if b then 1#8 else 0#8)) 0#8

/-- R93, Table 11-4: the body of a DECISION frame. -/
def decisionBody (sl : Slot) (c : Committed) (d : Option Decision) (fl : CommitFlags) : List Byte :=
  let piece : Option PieceData := d.bind fun d => match d.body with
    | .piece p => .some p
    | .cull | .reject => .none
  let carriesDecision := c.kind == .piece || c.kind == .cull
  let quick := carriesDecision && d.any (·.quick)
  let part := if carriesDecision || c.kind == .reject then d.any (·.partialFlag) else sl.partialFlag
  [byte (kindCode c.kind)] ++ pairBytes c.saws ++ [opt8 c.bin]
    ++ [opt8 (piece.map fun p => p.j - p.i), opt8 (piece.map (·.grade)), opt8 (piece.map (·.final))]
    ++ [if carriesDecision then opt8 (d.map (·.wc)) else 0xFF]
    ++ opt16 c.product ++ be16n ((piece.map (·.value)).getD 0)
    ++ [if c.kind = .recycle then causeCode sl.cause else 0xFF]
    ++ [if carriesDecision then setCode (d.bind (·.set)) else 0xFF]
    ++ [flagBits [quick, part, fl.stale, fl.catchDiversion, fl.overQuota]]

/-- R93, R125: the commit-time counts of a commitment. -/
def commitCounts (c : Committed) (d : Option Decision) (fl : CommitFlags) : List (TallyField × Nat) :=
  (if fl.stale then [(.staleCommits, 1)] else [])
    ++ (if fl.catchDiversion then [(.catchDiversions, 1)] else [])
    ++ (if fl.overQuota then [(.overQuota, 1)] else [])
    ++ (if c.kind = .piece ∧ d.any (·.quick) = true then [(.quickPieces, 1)] else [])

/-- R92, R93: the committed decision is written, the DECISION frame queued on D, the counts reported. `d` is
the decision a PIECE, CULL or REJECT commits. -/
def writeCommit (s : State) (lug : LugSeq) (c : Committed) (d : Option Decision) (fl : CommitFlags) : State :=
  let s1 := updSlot s lug fun sl => { sl with committed := .some c }
  let s2 := enqueue s1 .D (.frame 0 (ownFrame s1 16 31 lug (decisionBody (slotAt s1 lug) c d fl)))
  s2.report (commitCounts c d fl)

/-- R90: a PIECE commitment: a bin, quota, the saws. -/
def commitPiece (s : State) (lug : LugSeq) (d : Decision) (p : PieceData) (stale : Bool) : State :=
  let asked := askBins s (p.chosen.toList ++ p.alternate.toList)
  let reserved : Nat × Bool × State := match asked with
    | (.some n, s') => (n, false, s')
    | (.none, s') => (0, true, storeEvent s' fun b => reserveIn b 0)
  let quota := takeQuota reserved.2.2.bos p.product
  let s1 := reserved.2.2.updBos fun _ => quota.2
  writeCommit s1 lug
    { kind := .piece, saws := .some (p.i, p.j), bin := .some reserved.1, product := .some p.product }
    (.some d) { stale := stale, catchDiversion := reserved.2.1, overQuota := quota.1 }

/-- R91: the flags of a commitment that is not a PIECE. -/
def plainFlags (stale : Bool) : CommitFlags := { stale := stale, catchDiversion := false, overQuota := false }

/-- R91: a CULL or REJECT commitment: bin 0 reserved, no saws. -/
def commitToCatch (s : State) (lug : LugSeq) (kind : CommitKind) (d : Option Decision) (stale : Bool) : State :=
  writeCommit (storeEvent s fun b => reserveIn b 0) lug
    { kind := kind, saws := .none, bin := .some 0, product := .none } d (plainFlags stale)

/-- R91: a BYPASS commitment: the bypass bin if open, else bin 0; the bypass pair. -/
def commitBypass (s : State) (lug : LugSeq) : State :=
  let n := if binOpen s.settings.bypassBin (binAt s.bos s.settings.bypassBin) then s.settings.bypassBin else 0
  writeCommit (storeEvent s fun b => reserveIn b n) lug
    { kind := .bypass, saws := s.settings.bypassPair, bin := .some n, product := .none } .none
    (plainFlags false)

/-- R91: a RECYCLE commitment: the cause written, in the slot and for the count of R123; no bin, no saws. -/
def commitRecycle (s : State) (lug : LugSeq) (cause : Option RecycleCause) (stale : Bool) : State :=
  writeCommit (updSlot s lug fun sl => { sl with cause := cause }) lug
    { kind := .recycle, saws := .none, bin := .none, product := .none, cause := cause } .none (plainFlags stale)

/-- R90, R91: the commit actions of a decision. -/
def commitDecision (s : State) (lug : LugSeq) (d : Decision) (stale : Bool) : State :=
  match d.body with
  | .piece p => commitPiece s lug d p stale
  | .cull => commitToCatch s lug .cull (.some d) stale
  | .reject => commitToCatch s lug .reject (.some d) stale

/-- R89: the bins of a regraded decision, from the result of the sort map read. -/
def withBins (d : Decision) (r : CheckResult) : Decision :=
  let bins : Option Nat × Option Nat := match r with
    | .clean w | .single w => binsOfWord w
    | .double => (.some 0, .none)
  match d.body with
  | .piece p => { d with body := .piece { p with chosen := bins.1, alternate := bins.2 } }
  | .cull | .reject => d

/-- R88, R89: a regraded decision with its bins is written into the slot and committed, a stale commit. -/
def commitRegraded (s : State) (lug : LugSeq) (d : Decision) (r : CheckResult) : State :=
  let d' := withBins d r
  commitDecision (updSlot s lug fun sl => { sl with decision := .some d' }) lug d' true

/-- R89: the physical index of the sort map word of a regraded decision, through the active set. -/
def regradeIndex (s : State) (d : Decision) : Option Nat :=
  match d.body, s.tm.active with
  | .piece p, .some sid => physOf s.tm sid (sortKey p.product / 256) (sortKey p.product % 256)
  | _, _ => .none

/-- R89: a commit in flight begins, its word asked for at rank 2. A word that cannot be asked for, which R89
rules out, counts as uncorrectable (notes/assumptions/21.md). -/
def beginRegrade (s : State) (lug : LugSeq) (d : Decision) : State :=
  match regradeIndex s d with
  | .some i => requestCommit (s.updCu fun c => { c with inFlight := .some { lug := lug, decision := d } }) i
  | .none => commitRegraded s lug d .double

/-- R85, R86: CU takes a lock arrival, no commit being in flight: the buffer is freed, the slot judged. -/
def judgeLock (s : State) (lug : LugSeq) : State :=
  let s := freeBuffer s lug
  match lockCase s.ct.mode (slotAt s lug) with
  | .empty => s
  | .bypass => commitBypass s lug
  | .recycle cause stale => commitRecycle s lug cause stale
  | .reject => commitToCatch s lug .reject (slotAt s lug).decision false
  | .stands d stale => commitDecision s lug d stale
  | .regrade d => beginRegrade s lug d

/-- R85: a lock arrival: held while a commit is in flight, else judged. -/
def lockArrives (s : State) (lug : LugSeq) : State :=
  if s.cu.inFlight.isSome then s.updCu fun c => { c with heldLocks := c.heldLocks ++ [lug] }
  else judgeLock s lug

/-- R85: the held lock arrivals, taken in the order they were handed over until one begins a commit in flight.
DESIGN CHOICE: each is an event of its own, so the buffers they free join the free list in that order, not in the
ascending order R28 gives to one event (notes/assumptions/52.md). -/
def takeHeldLocks : List LugSeq → State → State
  | [], s => s
  | lug :: rest, s =>
    if s.cu.inFlight.isSome then s.updCu fun c => { c with heldLocks := lug :: rest }
    else takeHeldLocks rest (judgeLock s lug)

/-! ### Saws (R96, R97) -/

/-- R96: the saw pattern is set from a lug's committed decision. -/
def setPattern (s : State) (lug : LugSeq) : State :=
  s.updCu fun c =>
    { c with source := .some lug, saws := (slotAt s lug).committed.bind (·.saws) }

/-- Whether saw line k is lowered (R96, Table 11-9). -/
def sawLine (s : State) (k : Nat) : Bool := s.cu.saws.any fun p => k == p.1 || k == p.2

/-- R97: a switch point: a held one is replaced; it is held if its lug's commit is in flight. -/
def switchArrives (s : State) (lug : LugSeq) : State :=
  if s.cu.inFlight.any (fun f => f.lug == lug) then s.updCu fun c => { c with heldSwitch := .some lug }
  else setPattern (s.updCu fun c => { c with heldSwitch := .none }) lug

/-- R97: the held switch point is taken. -/
def takeHeldSwitch (s : State) : State :=
  match s.cu.heldSwitch with
  | .none => s
  | .some lug => setPattern (s.updCu fun c => { c with heldSwitch := .none }) lug

/-- R85, R89, R97: the commit in flight completes; held arrivals, then a held switch point, are taken. -/
def completeCommit (s : State) (fl : InFlight) (r : CheckResult) : State :=
  let held := s.cu.heldLocks
  let s1 := s.updCu fun c => { c with inFlight := .none, heldLocks := [] }
  takeHeldSwitch (takeHeldLocks held (commitRegraded s1 fl.lug fl.decision r))

/-! ### Sorting (R99 to R101) -/

/-- R12, R28: a slot takes the empty form; a buffer it still holds is released (notes/assumptions/40.md). -/
def retire (s : State) (lug : LugSeq) : State :=
  updSlot (freeBuffer s lug) lug fun sl => Slot.empty sl.seq

/-- R100, Table 11-4: the body of a SORT frame. -/
def sortBody (c : Committed) (used : Option Nat) (redirect : Bool) : List Byte :=
  [byte (kindCode c.kind), opt8 used, opt8 c.bin] ++ opt16 c.product ++ [flagByte redirect]

/-- R101, R123: the counts of a retired COMMITTED slot. The cause counted is the one written at lock, whatever a
scan that ended after the lock has written into the slot since (notes/assumptions/53.md). -/
def sortCounts (c : Committed) (used : Option Nat) (redirect : Bool) : List (TallyField × Nat) :=
  [(.outcome c.kind, 1)]
    ++ (if c.kind = .recycle then c.cause.toList.map fun x => (.cause x, 1) else [])
    ++ (match c.kind, c.product, c.saws with
        | .piece, .some p, .some (i, j) => [(.pieces p, 1), (.feet p, 2 * (j - i))]
        | _, _, _ => [])
    ++ (used.toList.map fun b => (.bin b, 1))
    ++ (if redirect then [(.redirects, 1)] else [])

/-- R99 to R101: a COMMITTED slot is delivered, reported, counted and retired. -/
def sortCommitted (s : State) (lug : LugSeq) (c : Committed) : State :=
  let result : Option Nat × Bool × State := match c.bin with
    | .none => (.none, false, s)
    | .some b =>
      let r := deliver s.bos b
      (.some r.1, r.2.1, storeEvent s fun st => (deliver st b).2.2)
  let used := result.1
  let redirect := result.2.1
  let s1 := enqueue result.2.2 .D (.frame 0 (ownFrame s 17 31 lug (sortBody c used redirect)))
  retire (s1.report (sortCounts c used redirect)) lug

/-- R99: the sort of a lug; a LIVE slot is retired silently. -/
def sortArrives (s : State) (lug : LugSeq) : State :=
  match (slotAt s lug).committed with
  | .none => retire s lug
  | .some c => sortCommitted s lug c

/-! ### Meanings -/

/-- LOCK_ARRIVAL (R85, R86): CU takes the oldest lock handed to it. -/
def execLockArrival (s : State) : Host.Outcome State Fault Refusal :=
  taken s fun s =>
    match s.handed.locks with
    | [] => s
    | lug :: rest => lockArrives (s.updHanded fun h => { h with locks := rest }) lug

/-- COMMIT_COMPLETION (R89): the Commit Unit's read in progress completes, and with it the commit in flight,
unless that was abandoned (R95, R139). -/
def execCommitCompletion (s : State) : Host.Outcome State Fault Refusal :=
  taken s fun s =>
    match s.tm.access with
    | .some a =>
      if a.who = .commit then
        let s1 := endAccess (noteRead s .commit a.index)
        if a.wanted then
          match s1.cu.inFlight with
          | .some fl => completeCommit s1 fl (checkAt s a.index)
          | .none => s1
        else s1
      else s
    | .none => s

/-- SAW_SWITCH_POINT (R96, R97): CU takes the oldest switch point handed to it. -/
def execSawSwitchPoint (s : State) : Host.Outcome State Fault Refusal :=
  taken s fun s =>
    match s.handed.switches with
    | [] => s
    | lug :: rest => switchArrives (s.updHanded fun h => { h with switches := rest }) lug

/-- SORT_ARRIVAL (R99): CU takes the oldest sort handed to it. -/
def execSortArrival (s : State) : Host.Outcome State Fault Refusal :=
  taken s fun s =>
    match s.handed.sorts with
    | [] => s
    | lug :: rest => sortArrives (s.updHanded fun h => { h with sorts := rest }) lug

end Sys2Proof.Machine
end

