-- ==== Sys2Proof/Machine/Links.lean ====
section
/-! DEFINITION. The receive side of the Link Unit (chapter 9): symbols, arrivals, error states, the acceptance
table, the receive queues, and the meanings of the link commands. -/

namespace Sys2Proof.Machine

open Sys2Proof

/-! ### Receive errors (R158, R159) -/

/-- R158, R159: sets a port's receive error count and judges its error state; a change of error state raises
a PORT alert. -/
def setErrCount (s : State) (p : Port) (count : Nat) : State :=
  let before := (portOf s.lu p).errState
  let after := judgeError before count
  let s' := updPort s p fun ps => { ps with errCount := count, errState := after }
  if after = before then s' else raiseAlert s' .port

/-- R155, R158: the arrival of a malformed frame: counted, the error count up by 8, nothing else. -/
def malformedArrival (s : State) (p : Port) : State :=
  setErrCount (updPort s p fun ps => { ps with malformed := satInc ps.malformed }) p
    (errUp (portOf s.lu p).errCount)

/-! ### Receive queues (R165) -/

/-- The counter of a queue. -/
def PerQueue.get (c : PerQueue) : QueueId → Word
  | .scan => c.scan
  | .mark => c.mark
  | .mgmt => c.mgmt
  | .sorter => c.sorter

/-- Adds one to the counter of a queue. -/
def PerQueue.inc (c : PerQueue) : QueueId → PerQueue
  | .scan => { c with scan := satInc c.scan }
  | .mark => { c with mark := satInc c.mark }
  | .mgmt => { c with mgmt := satInc c.mgmt }
  | .sorter => { c with sorter := satInc c.sorter }

/-- The frames waiting in a receive queue, oldest first. -/
def rxQueue (l : LinkUnit) : QueueId → List (Port × Frame)
  | .scan => l.scanQ
  | .mark => l.markQ
  | .mgmt => l.mgmtQ
  | .sorter => l.sorterQ

/-- Replaces the frames of a receive queue. -/
def setRxQueue (l : LinkUnit) (q : QueueId) (fs : List (Port × Frame)) : LinkUnit :=
  match q with
  | .scan => { l with scanQ := fs }
  | .mark => { l with markQ := fs }
  | .mgmt => { l with mgmtQ := fs }
  | .sorter => { l with sorterQ := fs }

/-- Table 9-6: the capacity of a receive queue. -/
def rxCapacity : QueueId → Nat
  | .scan => scanCapacity
  | .mark => markCapacity
  | .mgmt => mgmtCapacity
  | .sorter => sorterCapacity

/-- Table 9-6: the classes a queue's handler takes. -/
def classTaken : QueueId → Nat → Bool
  | .scan, c => c == 1 || c == 2 || c == 3 || c == 4
  | .mark, c => c == 8
  | .mgmt, c => c == 32
  | .sorter, c => c == 20 || c == 21

/-- Table 9-7: the overflow of a queue is handed to its block; a SORTER overflow is the Link Unit's own. -/
def handOverflow (s : State) (q : QueueId) (p : Port) (f : Frame) : State :=
  match q with
  | .scan => s.updHanded fun h => { h with scanOverflows := h.scanOverflows + 1 }
  | .mark => s.updHanded fun h => { h with markOverflows := h.markOverflows ++ [(p, f)] }
  | .mgmt => s.updHanded fun h => { h with mgmtOverflows := h.mgmtOverflows ++ [(p, f)] }
  | .sorter => raiseAlert (s.updLu fun l => { l with sorterDropped := satInc l.sorterDropped }) .port

/-- R165: a frame is consumed into a receive queue, or dropped from a full one. -/
def consume (s : State) (q : QueueId) (p : Port) (f : Frame) : State :=
  if (rxQueue s.lu q).length < rxCapacity q then
    s.updLu fun l => setRxQueue l q (rxQueue l q ++ [(p, f)])
  else handOverflow (s.updLu fun l => { l with overflow := l.overflow.inc q }) q p f

/-- R165: takes the frame at the head of a receive queue off it. -/
def popRx (s : State) (q : QueueId) : State := s.updLu fun l => setRxQueue l q (rxQueue l q).tail

/-! ### The acceptance table (R161, R162) -/

/-- Whether a port selection names a port. -/
def PortSel.names : PortSel → Port → Bool
  | .either, _ => true
  | .u, p => p == .U
  | .d, p => p == .D

/-- R161: an entry matches a frame arriving on a port. -/
def Filter.matches (e : Filter) (own : Nat) (p : Port) (f : Frame) : Bool :=
  e.enabled && (f.b0.setWidth 6 &&& e.classMask == e.classMatch &&& e.classMask)
    && (f.b1.setWidth 5 &&& e.originMask == e.originMatch &&& e.originMask)
    && (match e.dest with
      | .any => true
      | .own => frameDest f == own)
    && e.port.names p

/-- R162: the number of the lowest matching entry. -/
def firstMatch (s : State) (p : Port) (f : Frame) : Option Nat :=
  (List.range 16).find? fun n => (s.lu.filters[n]?).any fun e => e.matches s.settings.ownAddress p f

/-- R166: forwarding queues the frame, unchanged, on the other port at priority 3. -/
def forwardFrame (s : State) (p : Port) (f : Frame) : State := enqueue s p.other (.frame 3 f)

/-- R162: a good frame is judged by the acceptance table. -/
def filterFrame (s : State) (p : Port) (f : Frame) : State :=
  match firstMatch s p f with
  | .none => forwardFrame s p f
  | .some n =>
    let e := (s.lu.filters[n]?).getD Filter.disabled
    let s := s.updLu fun l => { l with filters := l.filters.setIfInBounds n { e with hits := satInc e.hits } }
    match e.action with
    | .consume => consume s e.queue p f
    | .consumeForward => forwardFrame (consume s e.queue p f) p f
    | .forward => forwardFrame s p f
    | .drop => s

/-- R156, R158, R160, R162: the arrival of a complete frame. A body above 240 bytes cannot be complete
(R155). -/
def frameArrives (s : State) (p : Port) (f : Frame) : State :=
  if 240 < f.body.length then malformedArrival s p
  else if goodFrame f then
    let s := setErrCount (updPort s p fun ps => { ps with good := satInc ps.good }) p
      (errDown (portOf s.lu p).errCount)
    if (portOf s.lu p).errState = .failed then
      updPort s p fun ps => { ps with failedDiscards := satInc ps.failedDiscards }
    else filterFrame s p f
  else
    setErrCount (updPort s p fun ps => { ps with bad := satInc ps.bad }) p (errUp (portOf s.lu p).errCount)

/-! ### Symbols (R155, R157) -/

/-- Sets what a port's receiver holds. -/
def setRx (s : State) (p : Port) (rx : Option (List Byte)) : State := updPort s p fun ps => { ps with rx := rx }

/-- R155: a data symbol inside a frame whose bytes so far (the symbol's last) are `bytes`. -/
def frameByte (s : State) (p : Port) (bytes : List Byte) : State :=
  if bytes.length = 6 ∧ 240 < num8 bytes 5 then malformedArrival (setRx s p .none) p
  else if 8 ≤ bytes.length ∧ bytes.length = 8 + num8 bytes 5 then
    frameArrives (setRx s p .none) p (parseFrame bytes)
  else setRx s p (.some bytes)

/-- R155: a symbol taken by the receiver of a port. -/
def receive (s : State) (p : Port) (sym : Symbol) : State :=
  match sym, (portOf s.lu p).rx with
  | .idle, _ => s
  | .startMark, .none => setRx s p (.some [])
  | .startMark, .some _ => malformedArrival (setRx s p (.some [])) p
  | .endMark, .none => s
  | .endMark, .some _ => malformedArrival (setRx s p .none) p
  | .data _, .none => s
  | .data b, .some bytes => frameByte s p (bytes ++ [b])

/-- R157: a symbol received on a DOWN port makes it UP, starts the timer and raises a PORT alert; then frames
queued begin to be sent (R168), and the symbol is taken as on an UP port. -/
def comeUp (s : State) (p : Port) (sym : Symbol) : State :=
  let s := updPort s p fun ps => { ps with link := .up, timer := true }
  let s := startTx (raiseAlert s .port) p
  receive s p sym

/-- R157: a symbol on a port, whatever its link state. -/
def symbolOn (s : State) (p : Port) (sym : Symbol) : State :=
  if (portOf s.lu p).link = .up then receive (updPort s p fun ps => { ps with timer := true }) p sym
  else comeUp s p sym

/-- R157: the link-alive timer of an UP port expires: DOWN, a PORT alert, and a frame being received ends
malformed. -/
def linkExpires (s : State) (p : Port) : State :=
  if (portOf s.lu p).link = .up then
    let rx := (portOf s.lu p).rx
    let s := raiseAlert (updPort s p fun ps => { ps with link := .down, timer := false, rx := .none }) .port
    match rx with
    | .none => s
    | .some _ => malformedArrival s p
  else s

/-! ### Meanings -/

/-- FRAME_ARRIVAL (R156): a whole frame completes on a port. DESIGN CHOICE: the command brings the whole frame, so
what the receiver held of another one is dropped and not counted (notes/assumptions/55.md). -/
def execFrameArrival (p : Port) (f : Frame) (s : State) : Host.Outcome State Fault Refusal :=
  taken s fun s => frameArrives (setRx s p .none) p f

/-- MALFORMED_FRAME (R155): a frame is found malformed; a new start mark that ends it begins the next. DESIGN
CHOICE: R155 speaks only of a frame in reception; with none in reception, or on a DOWN port, the command still counts
an arrival and, by a start mark, begins a frame, the link state left as it is (notes/assumptions/55.md). -/
def execMalformedFrame (p : Port) (how : MalformedBy) (s : State) : Host.Outcome State Fault Refusal :=
  taken s fun s => malformedArrival (setRx s p (if how = .startMark then .some [] else .none)) p

/-- LINK_ALIVE_EXPIRY (R157). -/
def execLinkAliveExpiry (p : Port) (s : State) : Host.Outcome State Fault Refusal :=
  taken s fun s => linkExpires s p

/-- LINK_UP (R157): a symbol received on a DOWN port. -/
def execLinkUp (p : Port) (sym : Symbol) (s : State) : Host.Outcome State Fault Refusal :=
  taken s fun s => if (portOf s.lu p).link = .down then comeUp s p sym else s

/-- SYMBOL_RECEIVED (R155, R157): a symbol received on a port. -/
def execSymbolReceived (p : Port) (sym : Symbol) (s : State) : Host.Outcome State Fault Refusal :=
  taken s fun s => symbolOn s p sym

/-- TRANSMISSION_COMPLETE (R168): the frame in transmission ends and the next is started. -/
def execTransmissionComplete (p : Port) (s : State) : Host.Outcome State Fault Refusal :=
  taken s fun s =>
    match (portOf s.lu p).sending with
    | .none => s
    | .some _ => startTx (updPort s p fun ps => { ps with sending := .none }) p

end Sys2Proof.Machine
end

