-- ==== Sys2Proof/Machine/Requests.lean ====
section
/-! DEFINITION. Taking and answering management requests (sections 10.1, 10.2), and the requests that work over
accesses: table reads and writes and the set selection (sections 8.5, 8.6), with the meanings of their commands. -/

namespace Sys2Proof.Machine

open Sys2Proof

/-! ### Taking and answering (R175 to R179) -/

/-- R175: no request is in execution and the part is not in STARTING. -/
def mgmtReady (s : State) : Bool := s.mg.exec.isNone && !s.ct.starting

/-- R178, Table 11-6: the length of the fixed arguments of a request code, if a request has it. -/
def argLength : Nat → Option Nat
  | 1 => .some 4
  | 2 => .some 4
  | 3 => .some 5
  | 4 => .some 5
  | 5 => .some 1
  | 6 => .some 1
  | 7 => .some 20
  | 8 => .some 10
  | 9 => .some 3
  | 10 => .some 2
  | 11 => .some 5
  | 12 => .some 3
  | 13 => .some 5
  | 14 => .some 3
  | 15 => .some 1
  | 16 => .some 2
  | 17 => .some 0
  | _ => .none

/-- R178: the body carries a code and an id, the code names a request, and its fixed arguments are there. -/
def soundRequest (f : Frame) : Bool :=
  decide (3 ≤ f.body.length) && (argLength (num8 f.body 0)).any fun n => decide (3 + n ≤ f.body.length)

/-- The arguments of a request: the bytes after its code and id. -/
def requestArgs (f : Frame) : List Byte := f.body.drop 3

/-- R177, R178: the request code and id echoed, 0 when the body is too short to carry them. -/
def echoBytes (f : Frame) : List Byte := if 3 ≤ f.body.length then f.body.take 3 else [0, 0, 0]

/-- R179, R180: the MGMT-REPLY to a request, its status word built from the state as it stands. -/
def replyFrame (s : State) (f : Frame) (r : Result) (data : List Byte) : Frame :=
  ownFrame s 33 (frameOrigin f) f.tag
    (be16 (statusWord s) ++ echoBytes f ++ [byte (resultCode r)] ++ data)

/-- R179: the reply is queued on the port of the request at priority 1. Its status word is built before the
reply joins the queue, so an ALERT that the reply itself displaces is still shown pending: the model's choice
(notes/assumptions/50.md). -/
def reply (s : State) (p : Port) (f : Frame) (r : Result) (data : List Byte) : State :=
  enqueue s p (.frame 1 (replyFrame s f r data))

/-- R175, R178: the frame at the head of the MGMT queue, if MG may take it and it is a MGMT-REQUEST satisfying
`test`, leaves the queue and is carried out. -/
def takeRequestIf (test : Frame → Bool) (k : State → Port → Frame → State) (s : State) : State :=
  if mgmtReady s then
    match s.lu.mgmtQ with
    | [] => s
    | (p, f) :: _ => if frameClass f = 32 ∧ test f = true then k (popRx s .mgmt) p f else s
  else s

/-- R178: a sound request of a code. -/
def soundCode (code : Nat) (f : Frame) : Bool := num8 f.body 0 == code && soundRequest f

/-- R175, R178: a sound request of a code is taken. -/
def takeRequest (code : Nat) (k : State → Port → Frame → State) (s : State) : State :=
  takeRequestIf (soundCode code) k s

/-- R178: a request refused for its body, counted. -/
def refuseBody (s : State) (p : Port) (f : Frame) : State :=
  reply (s.updMg fun m => { m with shortRequests := satInc m.shortRequests }) p f .badRequest []

/-! ### Requests in execution (R175) -/

/-- The request becomes the request in execution and asks for its first access. -/
def beginWork (s : State) (p : Port) (f : Frame) (w : Work) (i : Nat) (k : AccessKind) : State :=
  requestMgmt (s.updMg fun m => { m with exec := .some { port := p, frame := f, work := w } }) i k

/-- The request in execution goes on with its next access. -/
def continueWork (s : State) (e : InExec) (w : Work) (i : Nat) (k : AccessKind) : State :=
  requestMgmt (s.updMg fun m => { m with exec := .some { e with work := w } }) i k

/-- The request in execution ends with its reply. -/
def endWork (s : State) (e : InExec) (r : Result) (data : List Byte) : State :=
  reply (s.updMg fun m => { m with exec := .none }) e.port e.frame r data

/-- The management access in progress completes for the request in execution. -/
def mgmtAccess (k : State → Access → InExec → State) (s : State) : State :=
  match s.tm.access, s.mg.exec with
  | .some a, .some e => if a.who = .management then k s a e else s
  | _, _ => s

/-! ### Table requests (R145 to R148) -/

/-- The fields of a table request that passed check 1 of R145. -/
structure TableArgs where
  set : SetId
  page : Nat
  first : Nat
  count : Nat
  deriving DecidableEq, Repr

/-- R145, check 1, as far as the three requests share it: `limit` is the largest count R191 leaves, `fixed`
the argument bytes before the values, `width` the bytes of one value. -/
def tableArgs (args : List Byte) (limit fixed width : Nat) : Option TableArgs :=
  let page := num8 args 1
  let first := num8 args 2
  let count := num8 args 3
  match setOf (num8 args 0) with
  | .none => .none
  | .some sid =>
    if page ≤ 9 ∧ 1 ≤ count ∧ count ≤ limit ∧ first + count ≤ 256 ∧ fixed + width * count ≤ args.length then
      .some { set := sid, page := page, first := first, count := count }
    else .none

/-- R145, check 1: the half a TABLE-WRITE-BYTE names. -/
def halfOf (n : Nat) : Option Half := if n = 0 then .some .high else if n = 1 then .some .low else .none

/-- R145, checks 2 to 4 (`writes` says whether 3 and 4 apply): the entry's physical page, or the refusal. -/
def tableEntry (s : State) (a : TableArgs) (writes : Bool) : Except Result Nat :=
  match entryOf s.tm a.set a.page with
  | .none => .error .unmapped
  | .some e =>
    if writes && e.readOnly then .error .protectedEntry
    else if writes && pageInUse s e.page then .error .inUse
    else .ok e.page

/-- R145, R146: a TABLE-READ judged, and its first word asked for. -/
def tableRead (s : State) (p : Port) (f : Frame) : State :=
  match tableArgs (requestArgs f) 117 4 0 with
  | .none => reply s p f .badArg []
  | .some a => match tableEntry s a false with
    | .error r => reply s p f r []
    | .ok page => beginWork s p f (.read (page * 256 + a.first) a.count []) (page * 256 + a.first) .read

/-- Table 11-6: the word values a TABLE-WRITE carries. -/
def writeValues (args : List Byte) (count : Nat) : List Word :=
  (List.range count).map fun i => word16 args (4 + 2 * i)

/-- R145, R147: a TABLE-WRITE judged, and its first write asked for. -/
def tableWrite (s : State) (p : Port) (f : Frame) : State :=
  match tableArgs (requestArgs f) 116 4 2 with
  | .none => reply s p f .badArg []
  | .some a => match tableEntry s a true with
    | .error r => reply s p f r []
    | .ok page =>
      let values := writeValues (requestArgs f) a.count
      beginWork s p f (.write (page * 256 + a.first) values 0) (page * 256 + a.first)
        (.write (values.getD 0 0))

/-- R145, R148: a TABLE-WRITE-BYTE judged, and its first byte write asked for. -/
def tableWriteByte (s : State) (p : Port) (f : Frame) : State :=
  match tableArgs (requestArgs f) 120 5 1, halfOf (num8 (requestArgs f) 4) with
  | .some a, .some half => match tableEntry s a true with
    | .error r => reply s p f r []
    | .ok page =>
      let bytes := ((requestArgs f).drop 5).take a.count
      beginWork s p f (.writeByte (page * 256 + a.first) half bytes 0) (page * 256 + a.first)
        (.writeByte half (byteAt bytes 0))
  | _, _ => reply s p f .badArg []

/-- R146: one word read of a TABLE-READ completes; the next request is granted first (R138). -/
def readAccess (s : State) (a : Access) (e : InExec) : State :=
  match e.work with
  | .read start count got =>
    let s1 := endAccess (noteRead s .management a.index)
    match checkAt s a.index with
    | .double => endWork s1 e .ecc (byte got.length :: got.flatMap be16)
    | .clean v | .single v =>
      let got' := got ++ [v]
      if count ≤ got'.length then endWork s1 e .done (got'.flatMap be16)
      else continueWork s1 e (.read start count got') (start + got'.length) .read
  | .write _ _ _ | .writeByte _ _ _ _ | .select _ _ => s

/-- R147: one word write of a TABLE-WRITE completes, without reading the word. -/
def writeAccess (s : State) (a : Access) (e : InExec) : State :=
  match e.work with
  | .write start values pos =>
    let s1 := endAccess (s.updTm fun t => storeWord t a.index (freshWord (values.getD pos 0)))
    if values.length ≤ pos + 1 then endWork s1 e .done []
    else continueWork s1 e (.write start values (pos + 1)) (start + (pos + 1)) (.write (values.getD (pos + 1) 0))
  | .read _ _ _ | .writeByte _ _ _ _ | .select _ _ => s

/-- R148: one byte write completes: the word read and checked, merged and stored, in one access. -/
def byteAccess (s : State) (a : Access) (e : InExec) : State :=
  match e.work with
  | .writeByte start half bytes pos =>
    let noted := noteRead s .management a.index
    match checkAt s a.index with
    | .double => endWork (endAccess noted) e .ecc [byte pos]
    | .clean v | .single v =>
      let s1 := endAccess (noted.updTm fun t =>
        storeWord t a.index (freshWord (mergeHalf half (byteAt bytes pos) v)))
      if bytes.length ≤ pos + 1 then endWork s1 e .done []
      else continueWork s1 e (.writeByte start half bytes (pos + 1)) (start + (pos + 1))
        (.writeByte half (byteAt bytes (pos + 1)))
  | .read _ _ _ | .write _ _ _ | .select _ _ => s

/-! ### Set selection (R149 to R151) -/

/-- R150: the logical page of the n-th word of the head-cache copy. -/
def copyPage (n : Nat) : Nat := if n < 256 then 0 else 1

/-- R150: the word within its page of the n-th word of the head-cache copy. -/
def copyWord (n : Nat) : Nat := if n < 256 then n else 240 + (n - 256)

/-- R150: the physical index of the n-th word of the copy through a set. An unmapped entry, which R149 rules
out, reads as index 0 (notes/assumptions/21.md). -/
def copyIndex (t : TableMemory) (sid : SetId) (n : Nat) : Nat :=
  (physOf t sid (copyPage n) (copyWord n)).getD 0

/-- Table 11-8, L0: the class map nibble of a raw code, in a head's 32 words. -/
def classOfCode (words : List Word) (raw : Nat) : BitVec 4 :=
  (words.getD (2 + raw / 4) 0).extractLsb' (12 - 4 * (raw % 4)) 4

/-- Table 11-8, L0: a head's entry from its 32 words. -/
def headOfWords (words : List Word) : HeadEntry :=
  let w0 := words.getD 0 0
  let w1 := words.getD 1 0
  { participating := w0.getLsbD 0, lead := w0.getLsbD 1, mirrored := w0.getLsbD 2
    firstZone := (w1.extractLsb' 8 8).toNat, lastZone := (w1.extractLsb' 0 8).toNat
    classMap := ⟨⟨(List.range 64).map (classOfCode words)⟩, by simp⟩ }

/-- R150, Table 11-8: the head cache that a whole staging copy stands for. -/
def cacheOfWords (words : List Word) : HeadCache :=
  { heads := ⟨⟨(List.range 8).map fun h => headOfWords (words.drop (32 * h))⟩, by simp⟩
    thresholds := (words.drop 256).map (·.toNat) }

/-- R149: all ten entries of a set are mapped. -/
def whollyMapped (t : TableMemory) (sid : SetId) : Bool := (mapOf t sid).toList.all Option.isSome

/-- R149, R150: a SET-SELECT judged, and the first word of the copy asked for. -/
def setSelect (s : State) (p : Port) (f : Frame) : State :=
  match setOf (num8 (requestArgs f) 0) with
  | .none => reply s p f .badArg []
  | .some sid =>
    if whollyMapped s.tm sid then beginWork s p f (.select sid []) (copyIndex s.tm sid 0) .read
    else reply s p f .unmapped []

/-- R150, R23: the copy is complete: the set is active and the head cache replaced. -/
def finishSelect (s : State) (e : InExec) (sid : SetId) (words : List Word) : State :=
  endWork ((s.updTm fun t => { t with active := .some sid }).updSa
    fun sa => { sa with cache := cacheOfWords words }) e .done []

/-- R150, R151: one word of the head-cache copy is read. -/
def copyAccess (s : State) (a : Access) (e : InExec) : State :=
  match e.work with
  | .select sid staging =>
    let s1 := endAccess (noteRead s .management a.index)
    match checkAt s a.index with
    | .double => endWork s1 e .ecc [byte (copyPage staging.length), byte (copyWord staging.length)]
    | .clean v | .single v =>
      let staging' := staging ++ [v]
      if 263 ≤ staging'.length then finishSelect s1 e sid staging'
      else continueWork s1 e (.select sid staging') (copyIndex s1.tm sid staging'.length) .read
  | .read _ _ _ | .write _ _ _ | .writeByte _ _ _ _ => s

/-! ### Meanings -/

/-- TABLE_READ (R145). -/
def execTableRead (s : State) : Host.Outcome State Fault Refusal := taken s (takeRequest 1 tableRead)

/-- TABLE_WRITE (R145). -/
def execTableWrite (s : State) : Host.Outcome State Fault Refusal := taken s (takeRequest 2 tableWrite)

/-- TABLE_WRITE_BYTE (R145). -/
def execTableWriteByte (s : State) : Host.Outcome State Fault Refusal := taken s (takeRequest 3 tableWriteByte)

/-- TABLE_READ_ACCESS (R146). -/
def execTableReadAccess (s : State) : Host.Outcome State Fault Refusal := taken s (mgmtAccess readAccess)

/-- TABLE_WRITE_ACCESS (R147). -/
def execTableWriteAccess (s : State) : Host.Outcome State Fault Refusal := taken s (mgmtAccess writeAccess)

/-- BYTE_WRITE_ACCESS (R148). -/
def execByteWriteAccess (s : State) : Host.Outcome State Fault Refusal := taken s (mgmtAccess byteAccess)

/-- SET_SELECT (R149). -/
def execSetSelect (s : State) : Host.Outcome State Fault Refusal := taken s (takeRequest 5 setSelect)

/-- COPY_ACCESS (R150). -/
def execCopyAccess (s : State) : Host.Outcome State Fault Refusal := taken s (mgmtAccess copyAccess)

/-- BAD_REQUEST (R178). -/
def execBadRequest (s : State) : Host.Outcome State Fault Refusal :=
  taken s (takeRequestIf (fun f => !soundRequest f) refuseBody)

/-- MGMT_QUEUE_OVERFLOW (R177): MG takes the oldest overflow handed to it, in STARTING too. -/
def execMgmtQueueOverflow (s : State) : Host.Outcome State Fault Refusal :=
  taken s fun s =>
    match s.handed.mgmtOverflows with
    | [] => s
    | (p, f) :: rest => reply (s.updHanded fun h => { h with mgmtOverflows := rest }) p f .full []

end Sys2Proof.Machine
end

