-- ==== Sys2Proof/Machine/Resets.lean ====
section
/-! DEFINITION. The ring clearing of STOP (R15) and the resets: power-on, the sweep's completion, the reset
line, and the block values of SOFT-RESET. -/

namespace Sys2Proof.Machine

open Sys2Proof

/-! ### Entering STOP (R15) -/

/-- R108: the releases of a clearing, one for each COMMITTED slot holding a bin. -/
def releaseAll (ring : List Slot) (b : BinStore) : BinStore :=
  ring.foldl (fun acc sl => match sl.committed.bind (·.bin) with
    | .some n => unreserve acc n
    | .none => acc) b

/-- R28: the buffers held by slots, ascending. -/
def heldBuffers (ring : List Slot) : List Nat :=
  (List.range 24).filter fun b => ring.any fun sl => sl.buffer == .some b

/-- R12: every slot takes the empty form, its sequence unchanged. -/
def emptyRing (r : Vector Slot 64) : Vector Slot 64 := vecMap (fun sl => Slot.empty sl.seq) r

/-- R95: a commit in flight is abandoned with everything held behind it; R98: the saws are raised. -/
def clearCommit (s : State) : State :=
  (s.updCu fun _ => CommitUnit.atReset).updTm abandonCommitAccess

/-- R15: the ring clearing, its parts in the order of the rule. -/
def clearRing (s : State) : State :=
  let slots := s.ring.toList
  let s1 := storeEvent s fun b => releaseAll slots b
  let s2 := s1.updSa fun sa => { sa with freeList := sa.freeList ++ heldBuffers slots }
  let s3 := (abandonJob s2).updOpt fun o => { o with queue := [] }
  let s4 := (clearCommit s3).updRing emptyRing
  s4.report [(.clearings, 1)]

/-! ### What the resets share -/

/-- R119: every reserved count becomes 0 and the store counters 0; the rest is kept. -/
def resetStore (b : BinStore) : BinStore :=
  { b with bins := vecMap (fun r => { r with reserved := 0 }) b.bins, counts := {} }

/-- R21, R43, R69, R84, R103, R119, R187: the values that every reset gives the blocks whose state lies along
the line; the line mode becomes STOP and STARTING is as given. -/
def resetBlocks (s : State) (starting : Bool) : State :=
  { s with
    ct := Chain.atReset starting
    ring := ringAtReset
    sa := ScanAssembler.atReset s.sa.cache s.sa.buffers
    opt := Optimizer.atReset
    mh := {}
    cu := CommitUnit.atReset
    bos := resetStore s.bos
    mg := Management.atReset
    handed := {} }

/-! ### Power-on and the sweep (R152) -/

/-- POWER_ON: the power-on values of every block; the table words stand until the sweep ends
(notes/assumptions/2.md). -/
def powerOn (s : State) : State :=
  { State.reset with
    tm := TableMemory.atPowerOn s.tm.words
    sa := ScanAssembler.atReset HeadCache.empty s.sa.buffers
    resetPin := s.resetPin
    freeCount := s.freeCount
    pending := s.pending }

/-- R152: the sweep's completion: every word 0 and Clean, STARTING ends in STOP, the scrub timer starts. -/
def sweepEnds (s : State) : State :=
  (s.updTm fun t =>
    { t with words := [], scrubPos := 0, scrubTimer := .some s.settings.scrubInterval }).updCt
    fun c => { c with starting := false, mode := .stop }

/-! ### The reset line (R154, R173) -/

/-- R154: the word of an access cut by the reset input: its old stored form, or the new one, by the free
choice `lands`. -/
def cutAccess (s : State) (a : Access) (lands : Bool) : TableMemory :=
  if lands then
    match a.kind, checkAt s a.index with
    | .write v, _ => storeWord s.tm a.index (freshWord v)
    | .writeByte h b, .clean v | .writeByte h b, .single v =>
      storeWord s.tm a.index (freshWord (mergeHalf h b v))
    | .writeByte _ _, .double => s.tm
    | .scrub, .single v => storeWord s.tm a.index (freshWord v)
    | .scrub, _ => s.tm
    | .read, _ => s.tm
  else s.tm

/-- R154: the access in progress, if any, ends at the assertion. -/
def endCutAccess (s : State) : State :=
  match s.tm.access with
  | .none => s
  | .some a =>
    let s1 := { s with tm := cutAccess s a (Config.writeLands s.freeCount) }
    { s1.updTm (fun t => { t with access := .none }) with freeCount := s.freeCount + 1 }

/-- R173: a transmission in progress is cut off and a frame being received is lost. -/
def cutPort (s : State) (p : Port) : State := updPort s p fun ps => { ps with sending := .none, rx := .none }

/-- RESET_ASSERT (R103, R154, R173): the saws are raised, the ports fall silent, the access ends. -/
def assertReset (s : State) : State :=
  let s1 := endCutAccess (cutPort (cutPort s .U) .D)
  { s1.updCu (fun c => { c with saws := .none }) with resetPin := true }

/-- R153: TM state at the release of the reset input; the scrub timer starts unless the sweep runs. -/
def lineResetMemory (t : TableMemory) (starting : Bool) : TableMemory :=
  { t with
    record := .none, corrected := 0, uncorrected := 0, scrubPos := 0, visitDue := false, access := .none
    waitCommit := .none, waitOpt := .none, waitMgmt := .none
    scrubTimer := if starting then .none else .some 100 }

/-- RESET_RELEASE (R21 and the reset tables of every chapter; R152 during the sweep). -/
def releaseReset (s : State) : State :=
  let s1 := resetBlocks { s with settings := Settings.defaults } s.ct.starting
  let s2 := { s1 with tm := lineResetMemory s.tm s.ct.starting, lu := LinkUnit.atReset, resetPin := false }
  s2.report [(.clearings, 1)]

/-! ### SOFT-RESET (R153, R173, R185) -/

/-- R153, R154: TM state at a SOFT-RESET: requests withdrawn, an access in progress runs on unwanted. -/
def softResetMemory (t : TableMemory) : TableMemory :=
  { t with
    visitDue := false, waitCommit := .none, waitOpt := .none, waitMgmt := .none
    access := disown .optimizer (disown .commit t.access) }

/-- R173: LU empties its receive and transmit queues (and with them the pending alerts). -/
def emptyQueues (l : LinkUnit) : LinkUnit :=
  { l with
    scanQ := [], markQ := [], mgmtQ := [], sorterQ := []
    u := { l.u with tx := [] }
    d := { l.d with tx := [] } }

/-- R185, steps 1 and 2, before the reply. -/
def softReset (s : State) : State :=
  ((resetBlocks s false).updTm softResetMemory).report [(.clearings, 1)] |>.updLu emptyQueues

/-! ### Meanings -/

/-- POWER_ON (R152). -/
def execPowerOn (s : State) : Host.Outcome State Fault Refusal := .next (powerOn s)

/-- SWEEP_COMPLETE (R152): the sweep in progress completes. -/
def execSweepComplete (s : State) : Host.Outcome State Fault Refusal :=
  taken s fun s => if s.ct.starting then sweepEnds s else s

/-- RESET_ASSERT (R154, R173). -/
def execResetAssert (s : State) : Host.Outcome State Fault Refusal := taken s assertReset

/-- RESET_RELEASE (R21): the reset input is released, if it is held. -/
def execResetRelease (s : State) : Host.Outcome State Fault Refusal :=
  .next (if s.resetPin then releaseReset s else s)

end Sys2Proof.Machine
end

