-- ==== Sys2Proof/Machine/Scan.lean ====
section
/-! DEFINITION. The Scan Assembler (chapter 2): opening, profiles, closing, the scan deadline, lost frames, and
the meanings of its commands. -/

namespace Sys2Proof.Machine

open Sys2Proof

/-! ### The head cache (R22) -/

/-- R22: a head's cache entry; a head id above 7 is neither participating nor lead. -/
def headAt (c : HeadCache) (h : Nat) : HeadEntry := (c.heads[h]?).getD HeadEntry.empty

/-- R22: a head covers a zone. -/
def HeadEntry.covers (e : HeadEntry) (z : Nat) : Bool := decide (e.firstZone ≤ z) && decide (z ≤ e.lastZone)

/-- R22: the width class of a width measure. -/
def widthClass (c : HeadCache) (w : Nat) : Nat := c.thresholds.countP fun t => decide (t ≤ w)

/-- R26: the set of heads participating in the cache. -/
def participatingHeads (c : HeadCache) : BitVec 8 :=
  (List.range 8).foldl (fun acc h => if (headAt c h).participating then acc ||| (1#8 <<< h) else acc) 0

/-- Head h as a member of a set of heads. -/
def headBit (h : Nat) : BitVec 8 := 1#8 <<< h

/-! ### The end of a scan (R37, R38) -/

/-- R37, R38: a scan ends partial: the PARTIAL flag, then the partial policy in force. A slot already committed
at its lock is written like any other; the cause counted at its sort stays that of the lock
(notes/assumptions/53.md). -/
def endPartial (s : State) (lug : LugSeq) : State :=
  let s1 := updSlot s lug fun sl => { sl with scan := .some .partialScan, partialFlag := true }
  match s.settings.policy with
  | .optimize => if (slotAt s lug).optState = .none then offerLug s1 lug else s1
  | .recycle =>
    updSlot s1 lug fun sl =>
      { sl with
        cause := .some .partialScan
        optState := if sl.optState = .none then .skipped else sl.optState }

/-- R37: a scan completes. -/
def completeScan (s : State) (lug : LugSeq) : State :=
  if (slotAt s lug).loss then endPartial s lug
  else
    let s1 := updSlot s lug fun sl => { sl with scan := .some .complete }
    if (slotAt s lug).optState = .none then offerLug s1 lug else s1

/-- R36, R37: the scan completes if the closed heads contain every expected head. -/
def completeIfClosed (s : State) (lug : LugSeq) : State :=
  if (slotAt s lug).expected &&& ~~~(slotAt s lug).closed = 0 then completeScan s lug else s

/-- R38: the scan deadline of a lug. -/
def scanDeadline (s : State) (lug : LugSeq) : State :=
  let sl := slotAt s lug
  if sl.board = .present ∧ sl.scan = .some .opened then endPartial s lug else s

/-! ### BOARD-OPEN (R25 to R27) -/

/-- R34: a BOARD-OPEN accepted for a tag clears the cursors that name it. -/
def clearCursors (sa : ScanAssembler) (tag : LugSeq) : ScanAssembler :=
  { sa with cursors := vecMap (fun c => if c.any (fun x => x.tag == tag) then .none else c) sa.cursors }

/-- R26: an accepted BOARD-OPEN, taking buffer b, the head of the free list. -/
def acceptOpen (s : State) (lug : LugSeq) (raw width b : Nat) (rest : List Nat) : State :=
  let s1 := updSlot s lug fun sl =>
    { sl with
      board := .present, len := min raw 264, width := width, wc := widthClass s.sa.cache width
      expected := participatingHeads s.sa.cache, closed := 0, scan := .some .opened
      loss := decide (0 < s.sa.lossRun), partialFlag := false, buffer := .some b }
  let s2 := s1.updSa fun sa =>
    clearCursors { sa with freeList := rest, buffers := sa.buffers.setIfInBounds b [] } lug
  completeIfClosed s2 lug

/-- R25, R27: a BOARD-OPEN judged by the conditions of Table 2-2, in their order. -/
def openBoard (s : State) (f : Frame) : State :=
  let lug := f.tag
  let sl := slotAt s lug
  if f.body.length < 5 then s.updScanCounts fun c => { c with shortBody := satInc c.shortBody }
  else if s.settings.dScanwin < offset s lug then
    s.updScanCounts fun c => { c with lateOpen := satInc c.lateOpen }
  else if sl.origin ≠ .run then s.updScanCounts fun c => { c with wrongMode := satInc c.wrongMode }
  else if sl.board ≠ .none then s.updScanCounts fun c => { c with duplicate := satInc c.duplicate }
  else if (headAt s.sa.cache (num8 f.body 0)).lead = false then
    s.updScanCounts fun c => { c with notLead := satInc c.notLead }
  else match s.sa.freeList with
    | [] =>
      (updSlot s lug fun sl => { sl with board := .unscanned, cause := .some .noBuffer }).updScanCounts
        fun c => { c with noBuffer := satInc c.noBuffer }
    | b :: rest => acceptOpen s lug (num16 f.body 1) (num16 f.body 3) b rest

/-! ### Profiles (R29 to R35) -/

/-- R32: the cursor's next position; none when the zone passes z2. -/
def nextPosition (c : Cursor) (z st : Nat) : Option (Nat × Nat) :=
  let p : Nat × Nat :=
    if c.mirrored then (if st ≤ c.s1 then (z + 1, c.s2) else (z, st - 1))
    else (if c.s2 ≤ st then (z + 1, c.s1) else (z, st + 1))
  if c.z2 < p.1 then .none else .some p

/-- The key of cell (zone, station) in a map buffer. -/
def cellKey (z st : Nat) : Nat := z * 264 + st

/-- R29: a merge keeps the larger class. -/
def mergeCell (cells : Sparse (BitVec 4)) (z st : Nat) (cls : BitVec 4) : Sparse (BitVec 4) :=
  let old := sparseGet 0 cells (cellKey z st)
  sparseSet 0 cells (cellKey z st) (if old.toNat < cls.toNat then cls else old)

/-- What a run of cells works on: the cursor, the map cells, and the bad codes and excess cells met. -/
structure Filling where
  cursor : Cursor
  cells : Sparse (BitVec 4)
  bad : Nat
  excess : Nat
  deriving DecidableEq, Repr

/-- R32, R33: one cell at the cursor. -/
def fillCell (e : HeadEntry) (w : Filling) (raw : Byte) : Filling :=
  match w.cursor.position with
  | .none => { w with excess := w.excess + 1 }
  | .some (z, st) =>
    let moved := { w with cursor := { w.cursor with position := nextPosition w.cursor z st } }
    if 63 < raw.toNat then { moved with bad := w.bad + 1 }
    else if e.covers z then
      { moved with cells := mergeCell w.cells z st ((e.classMap[raw.toNat]?).getD 0) }
    else moved

/-- R32: the cells of a frame from a head, from its cursor, into the lug's map buffer. An OPEN scan whose buffer
its lock has freed merges nothing, while the cursor moves and the counters count: the model's choice
(notes/assumptions/47.md). -/
def fillCells (s : State) (head : Nat) (cur : Cursor) (raws : List Byte) : State :=
  let buf := (slotAt s cur.tag).buffer
  let start : Sparse (BitVec 4) := match buf with
    | .some b => (s.sa.buffers[b]?).getD []
    | .none => []
  let w := raws.foldl (fillCell (headAt s.sa.cache head)) { cursor := cur, cells := start, bad := 0, excess := 0 }
  s.updSa fun sa =>
    { sa with
      cursors := sa.cursors.setIfInBounds head (.some w.cursor)
      buffers := match buf with
        | .some b => sa.buffers.setIfInBounds b w.cells
        | .none => sa.buffers
      counts := { sa.counts with
        badCode := satAdd sa.counts.badCode w.bad
        excessCells := satAdd sa.counts.excessCells w.excess } }

/-- R30, R36: the first three checks of Table 2-3; a failed check counts and ends the frame. -/
def admitScan (s : State) (lug : LugSeq) (head : Nat) (k : State → State) : State :=
  if s.settings.dSort < offset s lug then s.updScanCounts fun c => { c with unknownLug := satInc c.unknownLug }
  else if (headAt s.sa.cache head).participating = false then
    s.updScanCounts fun c => { c with foreignHead := satInc c.foreignHead }
  else if (slotAt s lug).board ≠ .present then s.updScanCounts fun c => { c with noBoard := satInc c.noBoard }
  else k s

/-- R30: the four checks of Table 2-3. -/
def admitProfile (s : State) (lug : LugSeq) (head : Nat) (k : State → State) : State :=
  admitScan s lug head fun s =>
    if (slotAt s lug).scan ≠ .some .opened then
      s.updScanCounts fun c => { c with lateProfile := satInc c.lateProfile }
    else k s

/-- R31: a window is valid. -/
def windowValid (z1 z2 s1 s2 : Nat) : Bool :=
  decide (z1 ≤ z2) && decide (z2 ≤ 7) && decide (s1 ≤ s2) && decide (s2 ≤ 263)

/-- R31: an admitted PROFILE. -/
def setWindow (s : State) (f : Frame) : State :=
  let head := num8 f.body 0
  let z1 := num8 f.body 1
  let z2 := num8 f.body 2
  let s1 := num16 f.body 3
  let s2 := num16 f.body 5
  if windowValid z1 z2 s1 s2 then
    let mirrored := (headAt s.sa.cache head).mirrored
    fillCells s head
      { tag := f.tag, z1 := z1, z2 := z2, s1 := s1, s2 := s2, mirrored := mirrored,
        position := .some (z1, if mirrored then s2 else s1) }
      (f.body.drop 7)
  else
    s.updSa fun sa =>
      { sa with
        cursors := sa.cursors.setIfInBounds head .none
        counts := { sa.counts with badWindow := satInc sa.counts.badWindow } }

/-- R24, R30: a PROFILE taken from the SCAN queue. -/
def takeProfile (s : State) (f : Frame) : State :=
  if f.body.length < 7 then s.updScanCounts fun c => { c with shortBody := satInc c.shortBody }
  else admitProfile s f.tag (num8 f.body 0) fun s => setWindow s f

/-- R35: an admitted PROFILE-CONT. -/
def continueWindow (s : State) (f : Frame) : State :=
  let head := num8 f.body 0
  match (s.sa.cursors[head]?).getD .none with
  | .none => s.updScanCounts fun c => { c with noWindow := satInc c.noWindow }
  | .some cur =>
    if cur.tag = f.tag then fillCells s head cur (f.body.drop 1)
    else s.updScanCounts fun c => { c with noWindow := satInc c.noWindow }

/-- R24, R30: a PROFILE-CONT taken from the SCAN queue. -/
def takeProfileCont (s : State) (f : Frame) : State :=
  if f.body.length < 1 then s.updScanCounts fun c => { c with shortBody := satInc c.shortBody }
  else admitProfile s f.tag (num8 f.body 0) fun s => continueWindow s f

/-! ### BOARD-CLOSE (R36) -/

/-- R36: a BOARD-CLOSE that passes the first three checks. -/
def closeHead (s : State) (lug : LugSeq) (head : Nat) : State :=
  if (slotAt s lug).scan = .some .opened then
    if (slotAt s lug).closed.getLsbD head then
      s.updScanCounts fun c => { c with duplicateClose := satInc c.duplicateClose }
    else completeIfClosed (updSlot s lug fun sl => { sl with closed := sl.closed ||| headBit head }) lug
  else s.updScanCounts fun c => { c with lateClose := satInc c.lateClose }

/-- R24, R36: a BOARD-CLOSE taken from the SCAN queue. -/
def takeClose (s : State) (f : Frame) : State :=
  if f.body.length < 1 then s.updScanCounts fun c => { c with shortBody := satInc c.shortBody }
  else admitScan s f.tag (num8 f.body 0) fun s => closeHead s f.tag (num8 f.body 0)

/-! ### Taking frames (R24, R40) -/

/-- R40: the loss run decreases by 1 with each frame taken from the SCAN queue, down to 0. -/
def endScanTake (s : State) : State := s.updSa fun sa => { sa with lossRun := sa.lossRun - 1 }

/-- R24: the frame at the head of the SCAN queue, if it is of the class, leaves the queue and is judged; the
loss run falls after that (R26, R40). -/
def takeScan (cls : Nat) (k : State → Frame → State) (s : State) : State :=
  match s.lu.scanQ with
  | [] => s
  | (_, f) :: _ => if frameClass f = cls then endScanTake (k (popRx s .scan) f) else s

/-- R40: a SCAN queue overflow taken by SA. -/
def scanOverflow (s : State) : State :=
  let s1 := s.updSa fun sa =>
    { sa with
      lossRun := s.lu.scanQ.length
      counts := { sa.counts with scanLoss := satInc sa.counts.scanLoss } }
  let s2 := s1.updRing fun r =>
    vecMap (fun sl => if sl.scan = .some .opened then { sl with loss := true } else sl) r
  raiseAlert s2 .scanLoss

/-! ### Meanings -/

/-- BOARD_OPEN (R25). -/
def execBoardOpen (s : State) : Host.Outcome State Fault Refusal := taken s (takeScan 1 openBoard)

/-- PROFILE (R31). -/
def execProfile (s : State) : Host.Outcome State Fault Refusal := taken s (takeScan 2 takeProfile)

/-- PROFILE_CONT (R35). -/
def execProfileCont (s : State) : Host.Outcome State Fault Refusal := taken s (takeScan 3 takeProfileCont)

/-- BOARD_CLOSE (R36). -/
def execBoardClose (s : State) : Host.Outcome State Fault Refusal := taken s (takeScan 4 takeClose)

/-- SCAN_DEADLINE (R38): SA takes the oldest scan deadline handed to it. -/
def execScanDeadline (s : State) : Host.Outcome State Fault Refusal :=
  taken s fun s =>
    match s.handed.deadlines with
    | [] => s
    | lug :: rest => scanDeadline (s.updHanded fun h => { h with deadlines := rest }) lug

/-- SCAN_QUEUE_OVERFLOW (R40): SA takes an overflow handed to it. -/
def execScanQueueOverflow (s : State) : Host.Outcome State Fault Refusal :=
  taken s fun s =>
    match s.handed.scanOverflows with
    | 0 => s
    | n + 1 => scanOverflow (s.updHanded fun h => { h with scanOverflows := n })

end Sys2Proof.Machine
end

