-- ==== Sys2Proof/Machine/Status.lean ====
section
/-! DEFINITION. What management replies report: the groups of STATUS-READ (R183), the slot record of LUG-READ
(R184, R190), and the records of bins, quotas, filters, maps and tally periods in their layouts. -/

namespace Sys2Proof.Machine

open Sys2Proof

/-! ### Records in their layouts (R190, R191) -/

/-- Table 11-6: a page map entry in MAP-WRITE's argument layout; an unmapped one sends its page and flag
absent (notes/assumptions/24.md). -/
def mapEntryBytes (e : Option MapEntry) : List Byte :=
  match e with
  | .none => [0, 0xFF, 0xFF]
  | .some m => [1, byte m.page, flagByte m.readOnly]

/-- Table 11-6: a filter entry in FILTER-WRITE's argument layout, without its number, with its hit count. -/
def filterBytes (e : Filter) : List Byte :=
  [flagByte e.enabled, e.classMatch.setWidth 8, e.classMask.setWidth 8, e.originMatch.setWidth 8,
    e.originMask.setWidth 8, byte (destCode e.dest), byte (portSelCode e.port), byte (actionCode e.action),
    byte (queueCode e.queue)] ++ be16 e.hits

/-- R190: one bin of a BIN-READ, its condition 0 open, 1 full, 2 out of service. -/
def binBytes (b : BinStore) (n : Nat) : List Byte :=
  let r := binAt b n
  be16n r.capacity ++ be16n r.fill
    ++ [byte r.reserved, flagByte r.outOfService,
      if binOpen n r then 0 else if r.outOfService then 2 else 1]

/-- Table 11-6: a quota entry in QUOTA-SET's argument layout; an absent one sends its count absent
(notes/assumptions/24.md). -/
def quotaEntryBytes (p : Nat) (q : Option Nat) : List Byte :=
  be16n p ++ [flagByte q.isSome] ++ opt16 q

/-- R191: bit k of a presence bitmap, the first product in bit 7 of the first byte. -/
def presenceByte (present : Nat → Bool) (k : Nat) : Byte :=
  (List.range 8).foldl (fun acc i => if present (8 * k + i) then acc ||| (0x80#8 >>> i) else acc) 0

/-- R191: the packed entries of a QUOTA-READ, a remaining count sent 0 where absent. DESIGN CHOICE: the bits that
fill the last byte of the presence bitmap, beyond the products read, are sent 0 (notes/assumptions/54.md). -/
def quotaRunBytes (b : BinStore) (first count : Nat) : List Byte :=
  (List.range ((count + 7) / 8)).map
      (presenceByte fun k => decide (k < count) && (quotaAt b (first + k)).isSome)
    ++ (List.range count).flatMap fun k => be16n ((quotaAt b (first + k)).getD 0)

/-! ### The tally (R131) -/

/-- R130: the forms of a TALLY-READ. -/
inductive TallyForm where
  | productPieces
  | productFeet
  | bins
  | counters
  deriving DecidableEq, Repr

/-- Table 11-6: the form a code names. -/
def formOf : Nat → Option TallyForm
  | 0 => .some .productPieces
  | 1 => .some .productFeet
  | 2 => .some .bins
  | 3 => .some .counters
  | _ => .none

/-- R131: the 21 counts of the COUNTERS form, the groups in R131's order; the four commit-time counters, whose
order R131 does not give, in that of Table 7-1: the model's choice (notes/assumptions/48.md). -/
def counterFields : List TallyField :=
  [.outcome .piece, .outcome .cull, .outcome .reject, .outcome .recycle, .outcome .bypass,
   .cause .unscanned, .cause .noBuffer, .cause .partialScan, .cause .skipped, .cause .lateDecision,
   .cause .fault, .cause .cutConflict, .redirects, .overQuota, .catchDiversions, .staleCommits, .quickPieces,
   .marksAccepted, .marksLate, .marksRefused, .clearings]

/-- R131: the entries of a form; `seq` and `transit` end the COUNTERS form. -/
def periodEntries (t : TallyPeriod) (form : TallyForm) (first count : Nat) (seq : LugSeq) (transit : Nat) :
    List Byte :=
  let run (f : Nat → TallyField) : List Byte :=
    (List.range count).flatMap fun k => be24 (t.count (f (first + k)))
  match form with
  | .productPieces => run .pieces
  | .productFeet => run .feet
  | .bins => run .bin
  | .counters => counterFields.flatMap (fun f => be24 (t.count f)) ++ be16 seq ++ [byte transit]

/-- R131, R190: the data of a DONE reply to a TALLY-READ. -/
def periodBytes (t : TallyPeriod) (form : TallyForm) (first count : Nat) (seq : LugSeq) (transit : Nat) :
    List Byte :=
  be16 t.number ++ [flagByte t.saturated] ++ periodEntries t form first count seq transit

/-! ### The groups of Table 10-4 -/

/-- R4, Table 10-4: CHAIN. -/
def chainGroup (s : State) : List Byte :=
  be16 s.ct.spurious ++ be16 s.ct.slip ++ be16 s.ct.missing ++ be16 s.ct.seq ++ be16n s.ct.c
    ++ [byte (modeCode s.ct.mode)]

/-- Table 2-6, in its order. -/
def scanCountBytes (c : ScanCounts) : List Byte :=
  [c.lateOpen, c.wrongMode, c.duplicate, c.notLead, c.noBuffer, c.shortBody, c.unknownLug, c.foreignHead,
   c.noBoard, c.lateProfile, c.badWindow, c.noWindow, c.excessCells, c.badCode, c.lateClose, c.duplicateClose,
   c.scanLoss].flatMap be16

/-- Table 10-4: SCAN. -/
def scanGroup (s : State) : List Byte :=
  scanCountBytes s.sa.counts ++ [byte s.sa.freeList.length, byte s.sa.lossRun]

/-- Table 3-11, in its order. -/
def optCountBytes (c : OptCounts) : List Byte :=
  [c.started, c.quick, c.decided, c.discarded, c.fault, c.abandoned, c.skipped, c.staleOverflow].flatMap be16

/-- Table 10-4: OPTIMIZER; the quick flag of no job is a free value (notes/assumptions/18.md). -/
def optimizerGroup (s : State) : List Byte :=
  optCountBytes s.opt.counts ++ [byte s.opt.queue.length] ++ optSeq s.opt.queue.head?
    ++ optSeq (s.opt.job.map (·.lug)) ++ [setCode (latchedSet s)]
    ++ [match s.opt.job with
      | .some j => flagByte j.quick
      | .none => Config.quickOfNoJob]

/-- Table 10-4, Table 4-4: MARKS. -/
def marksGroup (s : State) : List Byte :=
  let c := s.mh
  [c.acceptedGrade, c.acceptedCut, c.acceptedReject, c.acceptedClear, c.unknownLug, c.late, c.noBoard,
   c.badMark, c.full, c.dropped, c.shortBody].flatMap be16

/-- Table 10-4: COMMIT. -/
def commitGroup (s : State) : List Byte :=
  pairBytes s.cu.saws ++ optSeq s.cu.source ++ optSeq (s.cu.inFlight.map (·.lug)) ++ [byte (committedCount s)]

/-- Table 10-4, Table 6-4: STORE. -/
def storeGroup (s : State) : List Byte :=
  let c := s.bos.counts
  [c.shortNotice, c.badBin, c.catchBinNotice, c.badDirection, c.clampedWrites, c.bin0Saturated].flatMap be16

/-- Table 10-4: one port of LINK; the code of a frame in transmission is a free value
(notes/assumptions/17.md). -/
def portBytes (p : PortState) : List Byte :=
  [byte (linkCode p.link), byte (errCode p.errState), byte p.errCount]
    ++ [p.good, p.bad, p.malformed, p.failedDiscards].flatMap be16
    ++ [byte p.tx.length,
      match p.sending with
      | .none => 0xFF
      | .some f => Config.sendingCode f.b0]
    ++ p.drops.toList.flatMap be16

/-- Table 10-4: one receive queue of LINK. -/
def queueBytes (l : LinkUnit) (q : QueueId) : List Byte :=
  [byte (rxQueue l q).length] ++ be16 (l.overflow.get q) ++ be16 (l.misrouted.get q)

/-- Table 10-4: LINK (notes/assumptions/27.md). -/
def linkGroup (s : State) : List Byte :=
  portBytes s.lu.u ++ portBytes s.lu.d
    ++ queueBytes s.lu .scan ++ queueBytes s.lu .mark ++ queueBytes s.lu .mgmt ++ queueBytes s.lu .sorter
    ++ be16 s.lu.sorterDropped
    ++ [s.lu.merged.bin, s.lu.merged.port, s.lu.merged.chain, s.lu.merged.ecc, s.lu.merged.scanLoss].flatMap be16
    ++ ([.bin, .port, .chain, .ecc, .scanLoss].map fun k => flagByte (alertPending s k))
    ++ be16 s.mg.shortRequests

/-- Table 10-4: FILTERS. -/
def filtersGroup (s : State) : List Byte := s.lu.filters.toList.flatMap filterBytes

/-- Table 10-4: TABLE (notes/assumptions/42.md). -/
def tableGroup (s : State) : List Byte :=
  [setCode s.tm.active] ++ s.tm.map0.toList.flatMap mapEntryBytes ++ s.tm.map1.toList.flatMap mapEntryBytes
    ++ be16n s.tm.scrubPos.toNat ++ [flagByte s.tm.visitDue]

/-- The code of a partial policy (Table 11-6). -/
def policyCode : PartialPolicy → Nat
  | .optimize => 0
  | .recycle => 1

/-- Table 10-4, Table 0-4: SETTINGS, in the widths of GEOMETRY-WRITE (notes/assumptions/42.md). -/
def settingsGroup (s : State) : List Byte :=
  let g := s.settings
  be16n g.countsPerStep ++ be16n g.tol ++ be16n g.lead
    ++ [byte g.dScanwin, byte g.dLock, byte g.dTrim, byte g.dSort, byte (policyCode g.policy), byte g.quick]
    ++ pairBytes g.bypassPair ++ [byte g.bypassBin, byte g.ownAddress] ++ be16n g.scrubInterval

/-- R183, Table 11-6: the contents of a group, numbered in the order of Table 10-4. -/
def groupBytes (s : State) : Nat → Option (List Byte)
  | 0 => .some (chainGroup s)
  | 1 => .some (scanGroup s)
  | 2 => .some (optimizerGroup s)
  | 3 => .some (marksGroup s)
  | 4 => .some (commitGroup s)
  | 5 => .some (storeGroup s)
  | 6 => .some (linkGroup s)
  | 7 => .some (filtersGroup s)
  | 8 => .some (tableGroup s)
  | 9 => .some (settingsGroup s)
  | _ => .none

/-! ### The slot record (R184, R190) -/

/-- R190: the four stations of a cut list, unused ones 0xFFFF. -/
def cutBytes (cuts : List Nat) : List Byte :=
  [byte cuts.length] ++ (List.range 4).flatMap fun k => opt16 cuts[k]?

/-- R190: a decision, presence byte first; the fields its kind does not have are sent absent. -/
def decisionBytes : Option Decision → List Byte
  | .none => 0 :: List.replicate 16 0xFF
  | .some d =>
    let piece : Option PieceData := match d.body with
      | .piece p => .some p
      | .cull | .reject => .none
    [1, byte (bodyCode d.body), opt8 (piece.map (·.i)), opt8 (piece.map (·.j)),
      opt8 (piece.map fun p => p.j - p.i), opt8 (piece.map (·.grade)), opt8 (piece.map (·.final)), byte d.wc]
      ++ opt16 (piece.map (·.product)) ++ be16n ((piece.map (·.value)).getD 0)
      ++ [opt8 (piece.bind (·.chosen)), opt8 (piece.bind (·.alternate)), setCode d.set,
        flagByte d.quick ||| (flagByte d.partialFlag <<< 1), d.revision]

/-- R190: a committed decision, presence byte first. -/
def committedBytes : Option Committed → List Byte
  | .none => 0 :: List.replicate 6 0xFF
  | .some c => [1, byte (kindCode c.kind)] ++ pairBytes c.saws ++ [opt8 c.bin] ++ opt16 c.product

/-- R190: the fields of Table 1-4 in table order. -/
def slotBytes (sl : Slot) : List Byte :=
  be16 sl.seq ++ [byte (modeCode sl.origin), byte (boardCode sl.board), scanCode sl.scan, flagByte sl.loss,
      flagByte sl.partialFlag]
    ++ be16n sl.len ++ be16n sl.width ++ [byte sl.wc, sl.expected, sl.closed, opt8 sl.buffer, opt8 sl.cap]
    ++ cutBytes sl.cuts ++ [flagByte sl.reject, sl.revision, byte (optStateCode sl.optState)]
    ++ decisionBytes sl.decision ++ [flagByte sl.committed.isSome] ++ committedBytes sl.committed
    ++ [causeCode sl.cause]

end Sys2Proof.Machine
end

