-- ==== Sys2Proof/Machine/Management.lean ====
section
/-! DEFINITION. The management requests of one event (chapter 10 and the rules of their owners), misrouted
frames, and the meanings of their commands. -/

namespace Sys2Proof.Machine

open Sys2Proof

/-! ### MAP-WRITE (R144) -/

/-- Replaces entry k of a set's page map. -/
def setMapEntry (t : TableMemory) (sid : SetId) (k : Nat) (e : Option MapEntry) : TableMemory :=
  match sid with
  | .s0 => { t with map0 := t.map0.setIfInBounds k e }
  | .s1 => { t with map1 := t.map1.setIfInBounds k e }

/-- Table 11-6: the entry a MAP-WRITE asks for; an unmapped one ignores page and flag
(notes/assumptions/25.md). -/
def askedEntry (args : List Byte) : Option MapEntry :=
  if num8 args 2 = 0 then .none else .some { page := num8 args 3, readOnly := byteAt args 4 != 0 }

/-- R144: a MAP-WRITE judged in the rule's order. -/
def mapWrite (s : State) (p : Port) (f : Frame) : State :=
  let args := requestArgs f
  let k := num8 args 1
  match setOf (num8 args 0) with
  | .none => reply s p f .badArg []
  | .some sid =>
    if 9 < k ∨ (askedEntry args).any (fun e => decide (31 < e.page)) = true then reply s p f .badArg []
    else if s.tm.active = .some sid ∨ latchedSet s = .some sid then reply s p f .inUse []
    else
      let entry (e : Option MapEntry) : List Byte := [byteAt args 0, byte k] ++ mapEntryBytes e
      reply (s.updTm fun t => setMapEntry t sid k (askedEntry args)) p f .done
        (entry (entryOf s.tm sid k) ++ entry (askedEntry args))

/-! ### MODE (R14, R15) -/

/-- Sets the line mode. -/
def setMode (s : State) (m : LineMode) : State := s.updCt fun c => { c with mode := m }

/-- R14, Table 1-5: a MODE request for a mode, with its result. -/
def changeMode (s : State) (target : LineMode) : Result × State :=
  match s.ct.mode, target with
  | .stop, .stop | .bypass, .bypass | .run, .run => (.done, s)
  | .bypass, .stop | .run, .stop => (.done, setMode (clearRing s) .stop)
  | .stop, .bypass | .run, .bypass => (.done, setMode s .bypass)
  | .stop, .run | .bypass, .run => if s.tm.active.isSome then (.done, setMode s .run) else (.noSet, s)

/-- R14: a MODE request. -/
def modeRequest (s : State) (p : Port) (f : Frame) : State :=
  match modeOf (num8 (requestArgs f) 0) with
  | .none => reply s p f .badArg []
  | .some m => reply (changeMode s m).2 p f (changeMode s m).1 []

/-! ### GEOMETRY-WRITE (R18 to R20) -/

/-- Table 11-6: the bypass pair of two bytes, both 0xFF being none. -/
def pairOf (i j : Nat) : Option (Nat × Nat) := if i = 255 ∧ j = 255 then .none else .some (i, j)

/-- R19, Table 11-6: the configuration a GEOMETRY-WRITE would produce. -/
def resulting (g : Settings) (args : List Byte) : Settings :=
  let named (n : Nat) : Bool := (word16 args 0).getLsbD n
  { countsPerStep := if named 0 then num16 args 2 else g.countsPerStep
    tol := if named 1 then num16 args 4 else g.tol
    lead := if named 2 then num16 args 6 else g.lead
    dScanwin := if named 3 then num8 args 8 else g.dScanwin
    dLock := if named 4 then num8 args 9 else g.dLock
    dTrim := if named 5 then num8 args 10 else g.dTrim
    dSort := if named 6 then num8 args 11 else g.dSort
    policy := if named 7 then (if num8 args 12 = 0 then .optimize else .recycle) else g.policy
    quick := if named 8 then num8 args 13 else g.quick
    bypassPair := if named 9 then pairOf (num8 args 14) (num8 args 15) else g.bypassPair
    bypassBin := if named 10 then num8 args 16 else g.bypassBin
    ownAddress := if named 11 then num8 args 17 else g.ownAddress
    scrubInterval := if named 12 then num16 args 18 else g.scrubInterval }

/-- R19, Tables 0-3 and 0-4: a configuration passes the checks. -/
def settingsValid (g : Settings) : Bool :=
  decide (16 ≤ g.countsPerStep) && decide (g.countsPerStep ≤ 4096)
    && decide (1 ≤ g.tol) && decide (g.tol ≤ g.countsPerStep / 4)
    && decide (g.lead < g.countsPerStep)
    && decide (g.dScanwin ≤ 3) && decide (2 ≤ g.dLock) && decide (g.dLock ≤ 58)
    && decide (3 ≤ g.dTrim) && decide (g.dTrim ≤ 59) && decide (4 ≤ g.dSort) && decide (g.dSort ≤ 60)
    && decide (g.dScanwin < g.dLock) && decide (g.dLock < g.dTrim) && decide (g.dTrim < g.dSort)
    && decide (1 ≤ g.quick) && decide (g.quick ≤ 16)
    && (match g.bypassPair with
      | .none => true
      | .some (i, j) => decide (i < j) && decide (j ≤ 10))
    && decide (g.bypassBin ≤ 47) && decide (g.ownAddress ≤ 30)
    && decide (1 ≤ g.scrubInterval) && decide (g.scrubInterval ≤ 65535)

/-- R19: a named partial policy is one of its two codes. -/
def policyNamed (args : List Byte) : Bool := !(word16 args 0).getLsbD 7 || decide (num8 args 12 ≤ 1)

/-- R18: the mask bits of the eleven settings written only in STOP. -/
def stopOnly (mask : Word) : Bool := mask &&& 0x07FF != 0

/-- R18 to R20: a GEOMETRY-WRITE. Naming no setting is answered DONE and changes nothing. -/
def geometryWrite (s : State) (p : Port) (f : Frame) : State :=
  let args := requestArgs f
  let mask := word16 args 0
  if stopOnly mask && s.ct.mode != .stop then reply s p f .wrongMode []
  else if mask &&& 0x1FFF = 0 then reply s p f .done []
  else if policyNamed args && settingsValid (resulting s.settings args) then
    reply (s.updSettings fun g => resulting g args) p f .done []
  else reply s p f .badArg []

/-! ### FILTER-WRITE (R164, R181) -/

/-- The entry of a number, below 16. -/
def filterAt (s : State) (n : Nat) : Filter := (s.lu.filters[n]?).getD Filter.disabled

/-- R181: the entry a FILTER-WRITE asks for, none when a field is out of range. -/
def askedFilter (args : List Byte) : Option Filter :=
  if num8 args 2 ≤ 63 ∧ num8 args 3 ≤ 63 ∧ num8 args 4 ≤ 31 ∧ num8 args 5 ≤ 31 then
    match destOf (num8 args 6), portSelOf (num8 args 7), actionOf (num8 args 8), queueOf (num8 args 9) with
    | .some d, .some ps, .some a, .some q =>
      .some
        { enabled := byteAt args 1 != 0, classMatch := (byteAt args 2).setWidth 6,
          classMask := (byteAt args 3).setWidth 6, originMatch := (byteAt args 4).setWidth 5,
          originMask := (byteAt args 5).setWidth 5, dest := d, port := ps, action := a, queue := q, hits := 0 }
    | _, _, _, _ => .none
  else .none

/-- R164, R181: a FILTER-WRITE; a refused one carries the entry once (notes/assumptions/23.md). -/
def filterWrite (s : State) (p : Port) (f : Frame) : State :=
  let args := requestArgs f
  let n := num8 args 0
  if 15 < n then reply s p f .badArg []
  else
    let entry (e : Filter) : List Byte := byte n :: filterBytes e
    match askedFilter args with
    | .none => reply s p f .badArg (entry (filterAt s n))
    | .some e =>
      reply (s.updLu fun l => { l with filters := l.filters.setIfInBounds n e }) p f .done
        (entry (filterAt s n) ++ entry e)

/-! ### Bins and quotas (R112, R113, R115, R116) -/

/-- R112: stores the capacity of a bin. -/
def setCapacity (s : State) (n capacity : Nat) : State :=
  storeEvent s fun b => setBin b n { binAt b n with capacity := capacity }

/-- R112: a BIN-WRITE. -/
def binWrite (s : State) (p : Port) (f : Frame) : State :=
  let n := num8 (requestArgs f) 0
  let capacity := num16 (requestArgs f) 1
  if 47 < n ∨ 4095 < capacity then reply s p f .badArg []
  else
    let load := (binAt s.bos n).load
    if n ≠ 0 ∧ capacity < load then
      reply ((setCapacity s n load).updStoreCounts fun c => { c with clampedWrites := satInc c.clampedWrites })
        p f .clamped ([byte n] ++ be16n load)
    else reply (setCapacity s n capacity) p f .done ([byte n] ++ be16n capacity)

/-- R113: a BIN-READ. -/
def binRead (s : State) (p : Port) (f : Frame) : State :=
  let first := num8 (requestArgs f) 0
  let count := num8 (requestArgs f) 1
  if first ≤ 47 ∧ 1 ≤ count ∧ count ≤ 24 ∧ first + count ≤ 48 then
    reply s p f .done ((List.range count).flatMap fun k => binBytes s.bos (first + k))
  else reply s p f .badArg []

/-- R115, Table 11-6: the quota entry a QUOTA-SET asks for. -/
def askedQuota (args : List Byte) : Option Nat := if byteAt args 2 = 0 then .none else .some (num16 args 3)

/-- R115: a QUOTA-SET. -/
def quotaSet (s : State) (p : Port) (f : Frame) : State :=
  let args := requestArgs f
  let product := num16 args 0
  if 639 < product then reply s p f .badArg []
  else
    reply (s.updBos fun b => setQuota b product (askedQuota args)) p f .done
      (quotaEntryBytes product (quotaAt s.bos product) ++ quotaEntryBytes product (askedQuota args))

/-- R116: a QUOTA-READ. -/
def quotaRead (s : State) (p : Port) (f : Frame) : State :=
  let first := num16 (requestArgs f) 0
  let count := num8 (requestArgs f) 2
  if first ≤ 639 ∧ 1 ≤ count ∧ count ≤ 100 ∧ first + count ≤ 640 then
    reply s p f .done (quotaRunBytes s.bos first count)
  else reply s p f .badArg []

/-! ### The tally (R128 to R131) -/

/-- R130, checks 2 and 3 of Table 7-2. -/
def tallyRange (form : TallyForm) (first count : Nat) : Bool :=
  match form with
  | .productPieces | .productFeet =>
    decide (first ≤ 639) && decide (1 ≤ count) && decide (count ≤ 48) && decide (first + count ≤ 640)
  | .bins => decide (first ≤ 47) && decide (1 ≤ count) && decide (count ≤ 48) && decide (first + count ≤ 48)
  | .counters => true

/-- R130, R131: a TALLY-READ, its checks in the order of Table 7-2. -/
def tallyRead (s : State) (p : Port) (f : Frame) : State :=
  let args := requestArgs f
  let first := num16 args 2
  let count := num8 args 4
  match formOf (num8 args 1) with
  | .none => reply s p f .badArg []
  | .some form =>
    if 1 < num8 args 0 ∨ tallyRange form first count = false then reply s p f .badArg []
    else if num8 args 0 = 0 then
      reply s p f .done (periodBytes s.tu.current form first count s.ct.seq (committedCount s))
    else match s.tu.closed with
      | .none => reply s p f .unknown []
      | .some c => reply s p f .done (periodBytes c.period form first count c.seqAtClose c.inTransit)

/-- R128, R129: the close of the current period. -/
def closePeriod (s : State) : State :=
  let transit := committedCount s
  s.updTu fun t =>
    { current := { number := t.current.number + 1, counts := [], saturated := false }
      closed := .some { period := t.current, seqAtClose := s.ct.seq, inTransit := transit } }

/-- R128: the data of each reply to a TALLY-CLOSE. -/
def closeData (s : State) : List Byte :=
  be16 s.tu.current.number ++ optSeq (s.tu.closed.map (·.period.number))

/-- R128: a TALLY-CLOSE, guarded by its expected period unless *any* is set. -/
def tallyClose (s : State) (p : Port) (f : Frame) : State :=
  let args := requestArgs f
  if byteAt args 0 = 0 ∧ word16 args 1 ≠ s.tu.current.number then reply s p f .badArg (closeData s)
  else reply (closePeriod s) p f .done (closeData (closePeriod s))

/-! ### STATUS-READ and LUG-READ (R182, R184) -/

/-- R136, R182: the error log cleared. -/
def clearLog (t : TableMemory) : TableMemory := { t with record := .none, corrected := 0, uncorrected := 0 }

/-- R182: a STATUS-READ: the log and the group as they stand, then the log cleared, then the reply. -/
def statusRead (s : State) (p : Port) (f : Frame) : State :=
  match groupBytes s (num8 (requestArgs f) 0) with
  | .none => reply s p f .badArg []
  | .some g => reply (s.updTm clearLog) p f .done (eccBytes s.tm ++ g)

/-- R184: a LUG-READ. -/
def lugRead (s : State) (p : Port) (f : Frame) : State :=
  let lug := word16 (requestArgs f) 0
  if s.settings.dSort < offset s lug then reply s p f .unknown (be16n (offset s lug))
  else reply s p f .done (be16n (offset s lug) ++ slotBytes (slotAt s lug))

/-- R185, R186: a SOFT-RESET with its reply, the last thing its event does. -/
def softResetRequest (s : State) (p : Port) (f : Frame) : State := reply (softReset s) p f .done []

/-! ### Misrouted frames (R165) -/

/-- R165: the frame at the head of a receive queue, of a class its handler does not take, is discarded when
taken and counted; a SCAN take lowers the loss run (R40), a MGMT take waits for MG (R175). -/
def misrouted (s : State) (q : QueueId) : State :=
  match rxQueue s.lu q with
  | [] => s
  | (_, f) :: _ =>
    if classTaken q (frameClass f) ∨ (q = .mgmt ∧ mgmtReady s = false) then s
    else
      let s1 := (popRx s q).updLu fun l => { l with misrouted := l.misrouted.inc q }
      if q = .scan then endScanTake s1 else s1

/-! ### Meanings -/

/-- MAP_WRITE (R144). -/
def execMapWrite (s : State) : Host.Outcome State Fault Refusal := taken s (takeRequest 4 mapWrite)

/-- MODE (R14). -/
def execMode (s : State) : Host.Outcome State Fault Refusal := taken s (takeRequest 6 modeRequest)

/-- GEOMETRY_WRITE (R18, R19). -/
def execGeometryWrite (s : State) : Host.Outcome State Fault Refusal := taken s (takeRequest 7 geometryWrite)

/-- FILTER_WRITE (R181). -/
def execFilterWrite (s : State) : Host.Outcome State Fault Refusal := taken s (takeRequest 8 filterWrite)

/-- BIN_WRITE (R112). -/
def execBinWrite (s : State) : Host.Outcome State Fault Refusal := taken s (takeRequest 9 binWrite)

/-- BIN_READ (R113). -/
def execBinRead (s : State) : Host.Outcome State Fault Refusal := taken s (takeRequest 10 binRead)

/-- QUOTA_SET (R115). -/
def execQuotaSet (s : State) : Host.Outcome State Fault Refusal := taken s (takeRequest 11 quotaSet)

/-- QUOTA_READ (R116). -/
def execQuotaRead (s : State) : Host.Outcome State Fault Refusal := taken s (takeRequest 12 quotaRead)

/-- TALLY_READ (R130). -/
def execTallyRead (s : State) : Host.Outcome State Fault Refusal := taken s (takeRequest 13 tallyRead)

/-- TALLY_CLOSE (R128). -/
def execTallyClose (s : State) : Host.Outcome State Fault Refusal := taken s (takeRequest 14 tallyClose)

/-- STATUS_READ (R182). -/
def execStatusRead (s : State) : Host.Outcome State Fault Refusal := taken s (takeRequest 15 statusRead)

/-- LUG_READ (R184). -/
def execLugRead (s : State) : Host.Outcome State Fault Refusal := taken s (takeRequest 16 lugRead)

/-- SOFT_RESET (R185). -/
def execSoftReset (s : State) : Host.Outcome State Fault Refusal := taken s (takeRequest 17 softResetRequest)

/-- MISROUTED_FRAME (R165). -/
def execMisroutedFrame (q : QueueId) (s : State) : Host.Outcome State Fault Refusal :=
  taken s fun s => misrouted s q

end Sys2Proof.Machine
end

