-- ==== Sys2Proof/Machine/Marks.lean ====
section
/-! DEFINITION. The Mark Handler (chapter 4): judgement, effects and replies of grader marks, MARK queue
overflow, and the meanings of its commands. -/

namespace Sys2Proof.Machine

open Sys2Proof

/-! ### Judgement (R71, R72) -/

/-- R71: the kind byte of a GRADER-MARK. -/
def markKind (f : Frame) : Nat := num8 f.body 0

/-- R71: the argument of a GRADER-MARK. -/
def markArg (f : Frame) : Nat := num16 f.body 1

/-- R72, condition 4: none of the four kinds, or a GRADE or CUT argument out of range. -/
def badMark (kind arg : Nat) : Bool :=
  if kind = 1 then arg < 1 || 8 < arg
  else if kind = 2 then 263 < arg
  else kind != 3 && kind != 4

/-- R72, Table 4-2: the reply to a mark, by the first condition that holds. -/
def judgeMark (s : State) (f : Frame) : MarkReply :=
  let off := offset s f.tag
  let sl := slotAt s f.tag
  if s.settings.dSort < off then .unknownLug
  else if s.settings.dLock ≤ off then .late
  else if sl.board ≠ .present ∨ sl.origin ≠ .run then .noBoard
  else if badMark (markKind f) (markArg f) then .badMark
  else if markKind f = 2 ∧ 4 ≤ sl.cuts.length then .full
  else .accepted

/-! ### Replies (R79, R80) -/

/-- R80, R126: the tally field of a reply. -/
def replyField : MarkReply → TallyField
  | .accepted => .marksAccepted
  | .late => .marksLate
  | .unknownLug | .noBoard | .badMark | .full | .dropped => .marksRefused

/-- R80: the mark counter of a reply, by kind for an accepted mark. -/
def MarkCounts.countReply (c : MarkCounts) (kind : Nat) : MarkReply → MarkCounts
  | .accepted =>
    if kind = 1 then { c with acceptedGrade := satInc c.acceptedGrade }
    else if kind = 2 then { c with acceptedCut := satInc c.acceptedCut }
    else if kind = 3 then { c with acceptedReject := satInc c.acceptedReject }
    else { c with acceptedClear := satInc c.acceptedClear }
  | .unknownLug => { c with unknownLug := satInc c.unknownLug }
  | .late => { c with late := satInc c.late }
  | .noBoard => { c with noBoard := satInc c.noBoard }
  | .badMark => { c with badMark := satInc c.badMark }
  | .full => { c with full := satInc c.full }
  | .dropped => { c with dropped := satInc c.dropped }

/-- R79, Table 11-3: queues a MARK-REPLY with the given revision and cut count. -/
def queueMarkReply (s : State) (p : Port) (f : Frame) (r : MarkReply) (kind arg : Nat) (rev : Byte)
    (cuts : Nat) : State :=
  enqueue s p (.frame 1 (ownFrame s 9 (frameOrigin f) f.tag
    ([byte (markReplyCode r), byte kind] ++ be16n arg ++ [rev, byte cuts])))

/-- R79, R80: the reply to a judged mark, after its effect, with its counts: the revision and cut count of the
slot for a live lug, 0 for UNKNOWN-LUG. -/
def replyMark (s : State) (p : Port) (f : Frame) (r : MarkReply) : State :=
  let live := r != .unknownLug
  let rev := if live then (slotAt s f.tag).revision else 0
  let cuts := if live then (slotAt s f.tag).cuts.length else 0
  let s1 := queueMarkReply s p f r (markKind f) (markArg f) rev cuts
  (s1.updMh fun c => c.countReply (markKind f) r).report [(replyField r, 1)]

/-! ### Accepted marks (R74 to R78) -/

/-- R75, Table 4-3: the state a GRADE, CUT or CLEAR leaves, the reject flag being clear. -/
def markState : OptState → OptState
  | .decided => .stale
  | .none => .none
  | .waiting => .waiting
  | .running => .running
  | .stale => .stale
  | .skipped => .skipped
  | .fault => .fault

/-- R75, Table 4-3: whether the lug is then offered. -/
def markOffers (sl : Slot) : Bool :=
  match sl.optState with
  | .none => sl.scan != .some .opened
  | .decided | .stale | .fault => true
  | .waiting | .running | .skipped => false

/-- R75: a GRADE, CUT or CLEAR on a slot whose reject flag is clear, its mark fields already changed. -/
def applyUnrejected (s : State) (lug : LugSeq) : State :=
  let offered := markOffers (slotAt s lug)
  let s1 := updSlot s lug fun sl => { sl with optState := markState sl.optState }
  if offered then offerLug s1 lug else s1

/-- R76: a GRADE or CUT on a rejected slot: the REJECT decision is stamped with the new revision. -/
def restampReject (s : State) (lug : LugSeq) : State :=
  updSlot s lug fun sl =>
    { sl with decision := sl.decision.map fun d => { d with revision := sl.revision } }

/-- R74 to R76: the effect of a GRADE or CUT whose mark fields are changed by `f`. -/
def applyGradeCut (s : State) (lug : LugSeq) (f : Slot → Slot) : State :=
  let rejected := (slotAt s lug).reject
  let s1 := updSlot s lug fun sl => f { sl with revision := sl.revision + 1 }
  if rejected then restampReject s1 lug else applyUnrejected s1 lug

/-- R74, R75: an accepted GRADE. -/
def applyGrade (s : State) (lug : LugSeq) (cap : Nat) : State :=
  applyGradeCut s lug fun sl => { sl with cap := .some cap }

/-- R74, R75: an accepted CUT. -/
def applyCut (s : State) (lug : LugSeq) (station : Nat) : State :=
  applyGradeCut s lug fun sl => { sl with cuts := sl.cuts ++ [station] }

/-- R77, Table 3-5: the REJECT decision of a slot at its new revision. -/
def rejectDecision (sl : Slot) : Decision :=
  { body := .reject, wc := sl.wc, set := .none, quick := false, partialFlag := sl.partialFlag,
    revision := sl.revision }

/-- R74, R77: an accepted REJECT; a queued lug is withdrawn. -/
def applyReject (s : State) (lug : LugSeq) : State :=
  let s1 := updSlot s lug fun sl =>
    let sl := { sl with revision := sl.revision + 1, reject := true }
    { sl with decision := .some (rejectDecision sl), optState := .decided }
  s1.updOpt fun o => { o with queue := o.queue.filter (· != lug) }

/-- R78: an accepted CLEAR on a rejected slot, its marks already cleared. -/
def clearReject (s : State) (lug : LugSeq) : State :=
  let s1 := updSlot s lug fun sl => { sl with decision := .none }
  let sl := slotAt s1 lug
  if sl.cause = .some .partialScan then updSlot s1 lug fun sl => { sl with optState := .skipped }
  else if sl.scan = .some .opened then
    updSlot s1 lug fun sl => { sl with optState := .none, cause := .none }
  else if isJobLug s1 lug then updSlot s1 lug fun sl => { sl with optState := .running, cause := .none }
  else offerLug (updSlot s1 lug fun sl => { sl with optState := .none, cause := .none }) lug

/-- R74, R75, R78: an accepted CLEAR. -/
def applyClear (s : State) (lug : LugSeq) : State :=
  let rejected := (slotAt s lug).reject
  let s1 := updSlot s lug fun sl =>
    { sl with revision := sl.revision + 1, cap := .none, cuts := [], reject := false }
  if rejected then clearReject s1 lug else applyUnrejected s1 lug

/-! ### Taking marks (R70) -/

/-- R70 to R80: a GRADER-MARK off the MARK queue, with the effect its kind has when accepted. -/
def takeMark (s : State) (p : Port) (f : Frame) (effect : State → State) : State :=
  let r := judgeMark s f
  replyMark (if r = .accepted then effect s else s) p f r

/-- R70, R71: the frame at the head of the MARK queue, if it is a GRADER-MARK satisfying `test`, is taken. -/
def takeMarkIf (test : Frame → Bool) (k : State → Port → Frame → State) (s : State) : State :=
  match s.lu.markQ with
  | [] => s
  | (p, f) :: _ => if frameClass f = 8 ∧ test f = true then k (popRx s .mark) p f else s

/-- R71: a whole GRADER-MARK body, of a kind satisfying `k`. -/
def wholeMark (k : Nat → Bool) (f : Frame) : Bool := decide (3 ≤ f.body.length) && k (markKind f)

/-- R81: a mark lost to a full MARK queue is answered DROPPED; a body too short is echoed as 0. -/
def answerDropped (s : State) (p : Port) (f : Frame) : State :=
  let whole := decide (3 ≤ f.body.length)
  let s1 := queueMarkReply s p f .dropped (if whole then markKind f else 0) (if whole then markArg f else 0) 0 0
  (s1.updMh fun c => c.countReply 0 .dropped).report [(replyField .dropped, 1)]

/-! ### Meanings -/

/-- GRADE_MARK (R74). -/
def execGradeMark (s : State) : Host.Outcome State Fault Refusal :=
  taken s (takeMarkIf (wholeMark (· == 1)) fun s p f => takeMark s p f fun s => applyGrade s f.tag (markArg f))

/-- CUT_MARK (R74). -/
def execCutMark (s : State) : Host.Outcome State Fault Refusal :=
  taken s (takeMarkIf (wholeMark (· == 2)) fun s p f => takeMark s p f fun s => applyCut s f.tag (markArg f))

/-- REJECT_MARK (R77). -/
def execRejectMark (s : State) : Host.Outcome State Fault Refusal :=
  taken s (takeMarkIf (wholeMark (· == 3)) fun s p f => takeMark s p f fun s => applyReject s f.tag)

/-- CLEAR_MARK (R78). -/
def execClearMark (s : State) : Host.Outcome State Fault Refusal :=
  taken s (takeMarkIf (wholeMark (· == 4)) fun s p f => takeMark s p f fun s => applyClear s f.tag)

/-- BAD_MARK_KIND (R72): a kind that is none of the four is judged and answered, and never accepted. -/
def execBadMarkKind (s : State) : Host.Outcome State Fault Refusal :=
  taken s (takeMarkIf (wholeMark fun k => k == 0 || decide (4 < k)) fun s p f => takeMark s p f id)

/-- MARK_SHORT_BODY (R71): discarded unanswered and counted. -/
def execMarkShortBody (s : State) : Host.Outcome State Fault Refusal :=
  taken s (takeMarkIf (fun f => decide (f.body.length < 3)) fun s _ _ =>
    s.updMh fun c => { c with shortBody := satInc c.shortBody })

/-- MARK_QUEUE_OVERFLOW (R81): MH takes the oldest overflow handed to it. -/
def execMarkQueueOverflow (s : State) : Host.Outcome State Fault Refusal :=
  taken s fun s =>
    match s.handed.markOverflows with
    | [] => s
    | (p, f) :: rest => answerDropped (s.updHanded fun h => { h with markOverflows := rest }) p f

end Sys2Proof.Machine
end

