-- ==== Sys2Proof/Machine/Notices.lean ====
section
/-! DEFINITION. Sorter notices (section 6.3): BIN-EMPTIED and BIN-SERVICE, and the meanings of their commands. -/

namespace Sys2Proof.Machine

open Sys2Proof

/-- R109: the frame at the head of the SORTER queue, if it is of the class, leaves the queue; one shorter than
its fixed part is counted and discarded. -/
def takeNotice (cls fixed : Nat) (k : State → List Byte → State) (s : State) : State :=
  match s.lu.sorterQ with
  | [] => s
  | (_, f) :: _ =>
    if frameClass f = cls then
      let s1 := popRx s .sorter
      if f.body.length < fixed then s1.updStoreCounts fun c => { c with shortNotice := satInc c.shortNotice }
      else k s1 f.body
    else s

/-- R110, R111: a notice naming a bin above 47. -/
def countBadBin (s : State) : State := s.updStoreCounts fun c => { c with badBin := satInc c.badBin }

/-- R110: a BIN-EMPTIED. -/
def binEmptied (s : State) (body : List Byte) : State :=
  let n := num8 body 0
  if 47 < n then countBadBin s
  else storeEvent s fun b => setBin b n { binAt b n with fill := 0 }

/-- R111: sets the out-of-service flag of a bin. -/
def setService (b : BinStore) (n : Nat) (out : Bool) : BinStore :=
  setBin b n { binAt b n with outOfService := out }

/-- R111: a BIN-SERVICE; direction in is 0, out is 1 (Table 11-3). -/
def binService (s : State) (body : List Byte) : State :=
  let n := num8 body 0
  let dir := num8 body 1
  if 47 < n then countBadBin s
  else if n = 0 then s.updStoreCounts fun c => { c with catchBinNotice := satInc c.catchBinNotice }
  else if dir = 1 then storeEvent s fun b => setService b n true
  else if dir = 0 then storeEvent s fun b => setService b n false
  else s.updStoreCounts fun c => { c with badDirection := satInc c.badDirection }

/-- BIN_EMPTIED (R110). -/
def execBinEmptied (s : State) : Host.Outcome State Fault Refusal := taken s (takeNotice 20 1 binEmptied)

/-- BIN_SERVICE (R111). -/
def execBinService (s : State) : Host.Outcome State Fault Refusal := taken s (takeNotice 21 2 binService)

end Sys2Proof.Machine
end

