-- ==== Sys2Proof/Machine/Dispatch.lean ====
section
/-! DEFINITION. The dispatch of commands: one arm for each row of spec/opcode_table.json. -/

namespace Sys2Proof.Machine

open Sys2Proof

def exec (i : Instr) (s : State) : Host.Outcome State Fault Refusal :=
  match i with
  | .encoderCount => Sys2Proof.Machine.execEncoderCount s
  | .missingIndex => Sys2Proof.Machine.execMissingIndex s
  | .lugIndex => Sys2Proof.Machine.execLugIndex s
  | .scanDeadline => Sys2Proof.Machine.execScanDeadline s
  | .boardOpen => Sys2Proof.Machine.execBoardOpen s
  | .profile => Sys2Proof.Machine.execProfile s
  | .profileCont => Sys2Proof.Machine.execProfileCont s
  | .boardClose => Sys2Proof.Machine.execBoardClose s
  | .scanQueueOverflow => Sys2Proof.Machine.execScanQueueOverflow s
  | .offer lug => Sys2Proof.Machine.execOffer lug s
  | .optimizerRead => Sys2Proof.Machine.execOptimizerRead s
  | .jobCompletion => Sys2Proof.Machine.execJobCompletion s
  | .optimizerLock => Sys2Proof.Machine.execOptimizerLock s
  | .gradeMark => Sys2Proof.Machine.execGradeMark s
  | .cutMark => Sys2Proof.Machine.execCutMark s
  | .rejectMark => Sys2Proof.Machine.execRejectMark s
  | .clearMark => Sys2Proof.Machine.execClearMark s
  | .badMarkKind => Sys2Proof.Machine.execBadMarkKind s
  | .markQueueOverflow => Sys2Proof.Machine.execMarkQueueOverflow s
  | .lockArrival => Sys2Proof.Machine.execLockArrival s
  | .commitCompletion => Sys2Proof.Machine.execCommitCompletion s
  | .sawSwitchPoint => Sys2Proof.Machine.execSawSwitchPoint s
  | .sortArrival => Sys2Proof.Machine.execSortArrival s
  | .binEmptied => Sys2Proof.Machine.execBinEmptied s
  | .binService => Sys2Proof.Machine.execBinService s
  | .frameArrival port frame => Sys2Proof.Machine.execFrameArrival port frame s
  | .malformedFrame port how => Sys2Proof.Machine.execMalformedFrame port how s
  | .misroutedFrame queue => Sys2Proof.Machine.execMisroutedFrame queue s
  | .linkAliveExpiry port => Sys2Proof.Machine.execLinkAliveExpiry port s
  | .linkUp port sym => Sys2Proof.Machine.execLinkUp port sym s
  | .transmissionComplete port => Sys2Proof.Machine.execTransmissionComplete port s
  | .tableRead => Sys2Proof.Machine.execTableRead s
  | .tableWrite => Sys2Proof.Machine.execTableWrite s
  | .tableWriteByte => Sys2Proof.Machine.execTableWriteByte s
  | .tableReadAccess => Sys2Proof.Machine.execTableReadAccess s
  | .tableWriteAccess => Sys2Proof.Machine.execTableWriteAccess s
  | .byteWriteAccess => Sys2Proof.Machine.execByteWriteAccess s
  | .mapWrite => Sys2Proof.Machine.execMapWrite s
  | .setSelect => Sys2Proof.Machine.execSetSelect s
  | .copyAccess => Sys2Proof.Machine.execCopyAccess s
  | .scrubIntervalExpiry => Sys2Proof.Machine.execScrubIntervalExpiry s
  | .scrubVisit => Sys2Proof.Machine.execScrubVisit s
  | .mode => Sys2Proof.Machine.execMode s
  | .geometryWrite => Sys2Proof.Machine.execGeometryWrite s
  | .filterWrite => Sys2Proof.Machine.execFilterWrite s
  | .binWrite => Sys2Proof.Machine.execBinWrite s
  | .binRead => Sys2Proof.Machine.execBinRead s
  | .quotaSet => Sys2Proof.Machine.execQuotaSet s
  | .quotaRead => Sys2Proof.Machine.execQuotaRead s
  | .tallyRead => Sys2Proof.Machine.execTallyRead s
  | .tallyClose => Sys2Proof.Machine.execTallyClose s
  | .statusRead => Sys2Proof.Machine.execStatusRead s
  | .lugRead => Sys2Proof.Machine.execLugRead s
  | .softReset => Sys2Proof.Machine.execSoftReset s
  | .badRequest => Sys2Proof.Machine.execBadRequest s
  | .mgmtQueueOverflow => Sys2Proof.Machine.execMgmtQueueOverflow s
  | .powerOn => Sys2Proof.Machine.execPowerOn s
  | .sweepComplete => Sys2Proof.Machine.execSweepComplete s
  | .resetAssert => Sys2Proof.Machine.execResetAssert s
  | .resetRelease => Sys2Proof.Machine.execResetRelease s
  | .symbolReceived port sym => Sys2Proof.Machine.execSymbolReceived port sym s
  | .markShortBody => Sys2Proof.Machine.execMarkShortBody s

end Sys2Proof.Machine
end

