-- ==== Sys2Proof/Machine/Step.lean ====
section
/-! DEFINITION. One step of the part: the command at the front of the queue, taken whole. -/

namespace Sys2Proof.Machine

open Sys2Proof

/-- One step: the command at the front of the queue has its effect with the queue's rest; on an empty queue the
part idles (notes/assumptions/4.md). -/
def step (s : State) : Host.Outcome State Fault Refusal :=
  match s.pending with
  | [] => .next s
  | c :: rest => exec c { s with pending := rest }

/-- The state with the command that a table word spells at the front of its queue; the state itself where the
word spells none, as every word does (`decodeTableWord`). -/
def State.withFetchWord (s : State) (nbits w : Nat) : State :=
  match decodeTableWord nbits w with
  | .some c => { s with pending := c :: s.pending }
  | .none => s

end Sys2Proof.Machine
end

