-- ==== Sys2Proof/Safety.lean ====
section
/-! DEFINITION. The terms in which claims about the part are stated: the blocks of the state and what a command
may touch, the invariants every step keeps, and the conditions under which a command has its own effect. -/

namespace Sys2Proof.Machine

open Sys2Proof

/-! ### Blocks and frames -/

/-- The parts of the state. -/
inductive Block where
  | settings
  | ct
  | ring
  | sa
  | opt
  | mh
  | cu
  | bos
  | tu
  | tm
  | lu
  | mg
  | resetPin
  | handed
  | freeCount
  | pending
  deriving DecidableEq, Repr

/-- Two states agree on a block. -/
def Block.same (s t : State) : Block → Prop
  | .settings => t.settings = s.settings
  | .ct => t.ct = s.ct
  | .ring => t.ring = s.ring
  | .sa => t.sa = s.sa
  | .opt => t.opt = s.opt
  | .mh => t.mh = s.mh
  | .cu => t.cu = s.cu
  | .bos => t.bos = s.bos
  | .tu => t.tu = s.tu
  | .tm => t.tm = s.tm
  | .lu => t.lu = s.lu
  | .mg => t.mg = s.mg
  | .resetPin => t.resetPin = s.resetPin
  | .handed => t.handed = s.handed
  | .freeCount => t.freeCount = s.freeCount
  | .pending => t.pending = s.pending

/-- Nothing but the listed blocks differs between two states. -/
def unchangedBut (changed : List Block) (s t : State) : Prop := ∀ b : Block, b ∉ changed → b.same s t

/-- The blocks a command may touch, from the rules of its row of spec/opcode_table.json. The queue of waiting
commands is touched by none. -/
def touches : Instr → List Block
  | .encoderCount | .missingIndex | .lugIndex => [.ct, .ring, .sa, .lu, .handed, .freeCount]
  | .scanDeadline => [.ring, .opt, .tm, .handed]
  | .boardOpen | .boardClose => [.ring, .sa, .opt, .tm, .lu]
  | .profile | .profileCont => [.sa, .lu]
  | .scanQueueOverflow => [.ring, .sa, .lu, .handed, .freeCount]
  | .offer _ | .jobCompletion => [.ring, .opt, .tm]
  | .optimizerRead => [.opt, .tm, .lu, .freeCount]
  | .optimizerLock => [.ring, .opt, .tm, .handed]
  | .gradeMark | .cutMark | .clearMark => [.ring, .opt, .mh, .tu, .tm, .lu, .freeCount]
  | .rejectMark => [.ring, .opt, .mh, .tu, .lu, .freeCount]
  | .badMarkKind => [.mh, .tu, .lu, .freeCount]
  | .markShortBody => [.mh, .lu]
  | .markQueueOverflow => [.mh, .tu, .lu, .handed, .freeCount]
  | .lockArrival => [.ring, .sa, .cu, .bos, .tu, .tm, .lu, .handed, .freeCount]
  | .commitCompletion => [.ring, .sa, .cu, .bos, .tu, .tm, .lu, .freeCount]
  | .sawSwitchPoint => [.cu, .handed]
  | .sortArrival => [.ring, .sa, .bos, .tu, .lu, .handed, .freeCount]
  | .binEmptied | .binService | .binWrite | .quotaSet => [.bos, .lu, .freeCount]
  | .frameArrival _ _ | .linkUp _ _ | .symbolReceived _ _ | .mgmtQueueOverflow => [.lu, .handed, .freeCount]
  | .malformedFrame _ _ | .linkAliveExpiry _ | .transmissionComplete _ | .filterWrite | .binRead | .quotaRead
  | .tallyRead | .lugRead => [.lu, .freeCount]
  | .misroutedFrame _ => [.sa, .lu]
  | .tableRead | .tableWrite | .tableWriteByte | .setSelect | .tableReadAccess | .tableWriteAccess
  | .byteWriteAccess => [.tm, .lu, .mg, .freeCount]
  | .copyAccess => [.sa, .tm, .lu, .mg, .freeCount]
  | .mapWrite | .scrubVisit | .statusRead => [.tm, .lu, .freeCount]
  | .scrubIntervalExpiry => [.tm]
  | .mode => [.ct, .ring, .sa, .opt, .cu, .bos, .tu, .tm, .lu, .freeCount]
  | .geometryWrite => [.settings, .lu, .freeCount]
  | .tallyClose => [.tu, .lu, .freeCount]
  | .badRequest => [.lu, .mg, .freeCount]
  | .softReset => [.ct, .ring, .sa, .opt, .mh, .cu, .bos, .tu, .tm, .lu, .mg, .handed, .freeCount]
  | .powerOn => [.settings, .ct, .ring, .sa, .opt, .mh, .cu, .bos, .tu, .tm, .lu, .mg, .handed]
  | .sweepComplete => [.ct, .tm]
  | .resetAssert => [.cu, .tm, .lu, .resetPin, .freeCount]
  | .resetRelease =>
    [.settings, .ct, .ring, .sa, .opt, .mh, .cu, .bos, .tu, .tm, .lu, .mg, .resetPin, .handed]

/-- Every slot but the one a lug addresses reads as before. -/
def otherSlotsKept (lug : LugSeq) (s t : State) : Prop :=
  ∀ l : LugSeq, l.toNat % 64 ≠ lug.toNat % 64 → slotAt t l = slotAt s l

/-! ### Invariants -/

/-- Every sparse store is in its canonical form: table words, quotas, both tally periods, map buffers. -/
def StoresCanonical (s : State) : Prop :=
  sparseWf blankWord s.tm.words = true
    ∧ sparseWf .none s.bos.quota = true
    ∧ sparseWf 0 s.tu.current.counts = true
    ∧ (∀ c ∈ s.tu.closed, sparseWf 0 c.period.counts = true)
    ∧ (∀ b ∈ s.sa.buffers.toList, sparseWf 0 b = true)

/-- R19: the configuration in force lies in the ranges of Tables 0-3 and 0-4 and satisfies R19's relations. -/
def SettingsSound (s : State) : Prop :=
  let g := s.settings
  16 ≤ g.countsPerStep ∧ g.countsPerStep ≤ 4096 ∧ 1 ≤ g.tol ∧ g.tol ≤ g.countsPerStep / 4
    ∧ g.lead < g.countsPerStep
    ∧ g.dScanwin < g.dLock ∧ g.dLock < g.dTrim ∧ g.dTrim < g.dSort ∧ g.dSort ≤ 60
    ∧ g.dScanwin ≤ 3 ∧ 2 ≤ g.dLock
    ∧ 1 ≤ g.quick ∧ g.quick ≤ 16
    ∧ (∀ p ∈ g.bypassPair, p.1 < p.2 ∧ p.2 ≤ 10)
    ∧ g.bypassBin ≤ 47 ∧ g.ownAddress ≤ 30 ∧ 1 ≤ g.scrubInterval ∧ g.scrubInterval ≤ 65535

/-- R165, R167, R44, R71, R40: no queue holds more than its capacity, no cut list more than 4 stations, and the
loss run is at most 32. -/
def QueuesBounded (s : State) : Prop :=
  (∀ q : QueueId, (rxQueue s.lu q).length ≤ rxCapacity q)
    ∧ s.lu.u.tx.length ≤ 8 ∧ s.lu.d.tx.length ≤ 8
    ∧ s.opt.queue.length ≤ 16
    ∧ (∀ sl ∈ s.ring.toList, sl.cuts.length ≤ 4)
    ∧ s.sa.lossRun ≤ 32

/-- R10: slot k names the one sequence whose residue is k and whose offset is 0 to 63. -/
def RingAligned (s : State) : Prop :=
  ∀ k : Fin 64, s.ring[k.val].seq.toNat % 64 = k.val ∧ offset s s.ring[k.val].seq ≤ 63

/-- R104: the slots that are COMMITTED and hold a reservation in a bin. -/
def reservationsOf (s : State) (n : Nat) : Nat :=
  s.ring.toList.countP fun sl => (sl.committed.bind (·.bin)) == .some n

/-- R104: every bin's reserved count covers the slots that hold a reservation in it; for bins 1 to 47 the load
never exceeds the capacity, which is at most 4095. -/
def BinsSound (s : State) : Prop :=
  ∀ n : Nat, n ≤ 47 → reservationsOf s n ≤ (binAt s.bos n).reserved
    ∧ (n ≠ 0 → (binAt s.bos n).load ≤ (binAt s.bos n).capacity ∧ (binAt s.bos n).capacity ≤ 4095)

/-- R28: each map buffer 0 to 23 is once on the free list or held by one slot, and only a slot with a board
holds one. -/
def BuffersApart (s : State) : Prop :=
  (s.sa.freeList ++ s.ring.toList.filterMap (·.buffer)).Perm (List.range 24)
    ∧ ∀ sl ∈ s.ring.toList, sl.board ≠ .present → sl.buffer = .none

/-- R170: at most one ALERT of each kind waits, on D, with an occurrence count of 1 to 255. -/
def AlertsSingle (s : State) : Prop :=
  (∀ k : AlertKind, s.lu.d.tx.countP (TxItem.isAlert k) ≤ 1 ∧ s.lu.u.tx.countP (TxItem.isAlert k) = 0)
    ∧ ∀ x ∈ s.lu.d.tx, ∀ k n, x = .alert k n → 1 ≤ n ∧ n ≤ 255

/-- R158, R159: the error state a receive error count can stand in. -/
def errorBand (p : PortState) : Prop :=
  p.errCount ≤ 255 ∧
    match p.errState with
    | .clean => p.errCount < 96
    | .noisy => 64 ≤ p.errCount ∧ p.errCount < 192
    | .failed => 64 ≤ p.errCount

/-- R158, R159: both ports stand in the bands of Table 9-2. -/
def ErrorBands (s : State) : Prop := errorBand s.lu.u ∧ errorBand s.lu.d

/-- Whether an access writes table words at a request of the Management Handler. -/
def AccessKind.tableWrites : AccessKind → Bool
  | .write _ | .writeByte _ _ => true
  | .read | .scrub => false

/-- Whether a request in execution is a table write, over words from `start` on, and how many. -/
def Work.writeRun : Work → Option (Nat × Nat)
  | .write start values _ => .some (start, values.length)
  | .writeByte start _ bytes _ => .some (start, bytes.length)
  | .read _ _ _ | .select _ _ => .none

/-- R14, R49: RUN, a RUN-origin slot, a queued lug or a running job implies an active set. -/
def SetWhereNeeded (s : State) : Prop :=
  (s.ct.mode = .run ∨ (∃ sl ∈ s.ring.toList, sl.origin = .run) ∨ s.opt.queue ≠ [] ∨ s.opt.job ≠ .none) →
    s.tm.active ≠ .none

/-- R138, R175: the Management Handler has one access at a time, for its request in execution, and table writes
are its own. -/
def MgmtAccessOrdered (s : State) : Prop :=
  (∀ a ∈ s.tm.access, a.kind.tableWrites = true → a.who = .management)
    ∧ (∀ a ∈ s.tm.access, a.who = .management → s.tm.waitMgmt = .none ∧ s.mg.exec ≠ .none)
    ∧ (s.tm.waitMgmt ≠ .none → s.mg.exec ≠ .none)

/-- The run of words a table write in execution covers holds an index. -/
def inWriteRun (s : State) (i : Nat) : Prop :=
  ∀ e ∈ s.mg.exec, ∀ r ∈ e.work.writeRun, r.1 ≤ i ∧ i < r.1 + r.2

/-- R143, R145: every table write in execution runs inside one page that is not in use, and its access, waiting
or in progress, lies in its run. -/
def WritesOutside (s : State) : Prop :=
  (∀ e ∈ s.mg.exec, ∀ r ∈ e.work.writeRun, r.1 % 256 + r.2 ≤ 256 ∧ pageInUse s (r.1 / 256) = false)
    ∧ (∀ a ∈ s.tm.access, (a.who = .management → inWriteRun s a.index)
        ∧ (a.kind.tableWrites = true → ∃ e ∈ s.mg.exec, e.work.writeRun ≠ .none))
    ∧ (∀ w ∈ s.tm.waitMgmt, inWriteRun s w.1
        ∧ (w.2.tableWrites = true → ∃ e ∈ s.mg.exec, e.work.writeRun ≠ .none))

/-- What protects the pages in use (R143): the three conditions above together. -/
def WritesGuarded (s : State) : Prop := SetWhereNeeded s ∧ MgmtAccessOrdered s ∧ WritesOutside s

/-- R13, R48, R44, R26: STARTING stands in STOP, no lug is queued while no job runs, no lug is queued twice or
while its job runs, and a PRESENT board has a scan state. -/
def HandlersOrdered (s : State) : Prop :=
  (s.ct.starting = true → s.ct.mode = .stop) ∧ (s.opt.job = .none → s.opt.queue = [])
    ∧ s.opt.queue.Nodup ∧ (∀ j ∈ s.opt.job, j.lug ∉ s.opt.queue)
    ∧ ∀ sl ∈ s.ring.toList, sl.board = .present → sl.scan ≠ .none

/-! ### When a command has its own effect -/

/-- MG takes the request of a code from the head of the MGMT queue (R175), a MGMT-REQUEST whose body carries the
code, the id and `args` bytes of arguments (R178). -/
def Requested (s : State) (p : Port) (f : Frame) (rest : List (Port × Frame)) (code args : Nat) : Prop :=
  s.resetPin = false ∧ s.mg.exec = .none ∧ s.ct.starting = false ∧ s.lu.mgmtQ = (p, f) :: rest
    ∧ frameClass f = 32 ∧ num8 f.body 0 = code ∧ 3 + args ≤ f.body.length

/-- The state with the head of the MGMT queue taken. -/
def mgmtTaken (s : State) (rest : List (Port × Frame)) : State := { s with lu := { s.lu with mgmtQ := rest } }

/-- MH takes the GRADER-MARK at the head of the MARK queue, whose body carries kind and argument (R70, R71). -/
def MarkWaiting (s : State) (p : Port) (f : Frame) (rest : List (Port × Frame)) : Prop :=
  s.resetPin = false ∧ s.lu.markQ = (p, f) :: rest ∧ frameClass f = 8 ∧ 3 ≤ f.body.length

/-- The state with the head of the MARK queue taken. -/
def markTaken (s : State) (rest : List (Port × Frame)) : State := { s with lu := { s.lu with markQ := rest } }

/-- SA takes the scanner frame of a class at the head of the SCAN queue, its body at least `fixed` bytes
(R24). -/
def ScanWaiting (s : State) (p : Port) (f : Frame) (rest : List (Port × Frame)) (cls fixed : Nat) : Prop :=
  s.resetPin = false ∧ s.lu.scanQ = (p, f) :: rest ∧ frameClass f = cls ∧ fixed ≤ f.body.length

/-- The state with the head of the SCAN queue taken. -/
def scanTaken (s : State) (rest : List (Port × Frame)) : State := { s with lu := { s.lu with scanQ := rest } }

/-- The management access in progress belongs to the request in execution (R138, R175). -/
def MgmtAccessing (s : State) (a : Access) (e : InExec) : Prop :=
  s.resetPin = false ∧ s.tm.access = .some a ∧ a.who = .management ∧ s.mg.exec = .some e

end Sys2Proof.Machine
end

