-- ==== Sys2Proof/Certificates/Slice0/Obligations.lean ====
section
/-! DEFINITION. The statements for the provers: what a step runs, what every command leaves unchanged, the
invariants every step keeps, and what each command does. -/

open Sys2Proof Sys2Proof.Machine

/-! ### The whole machine -/

/-- A step runs the command at the front of the queue with the queue's rest; an empty queue idles (the model's
choice, notes/assumptions/4.md). -/
def Obligations.StepRunsTheFrontCommand : Prop :=
  (∀ (s : State) (c : Instr) (rest : List Instr), s.pending = c :: rest →
      step s = exec c { s with pending := rest })
    ∧ ∀ s : State, s.pending = [] → step s = .next s

/-- Every command completes in every state and changes nothing outside the blocks its row names: no command
touches the queue of waiting commands. That one with nothing to act on completes too is the model's choice
(notes/assumptions/3.md). -/
def Obligations.CommandsCompleteWithinTheirBlocks : Prop :=
  ∀ (c : Instr) (s : State), ∃ t, exec c s = .next t ∧ unchangedBut (touches c) s t

/-- While the reset input is held asserted no command but a power-on and the release of the input changes
anything. That every other command, a second assertion among them, changes nothing is the model's choice
(notes/assumptions/35.md). -/
def Obligations.HeldResetTakesNoEvents : Prop :=
  ∀ (c : Instr) (s : State), s.resetPin = true → c ≠ .powerOn → c ≠ .resetRelease → exec c s = .next s

/-- R13, R14: STARTING, with mode STOP, ends by no command but the completion of the sweep; a command leaves the
mode as it was, or makes it STOP at a reset, or is a MODE request, and RUN is entered with a set active. -/
def Obligations.ModeChangesOnlyByRequestOrReset : Prop :=
  (∀ (c : Instr) (s t : State), s.ct.starting = true → s.ct.mode = .stop → c ≠ .sweepComplete →
    exec c s = .next t → t.ct.starting = true ∧ t.ct.mode = .stop)
  ∧ ∀ (c : Instr) (s t : State), exec c s = .next t → t.ct.mode ≠ s.ct.mode →
    (c = .mode ∨ t.ct.mode = .stop ∧ c ∈ [Instr.softReset, .sweepComplete, .powerOn, .resetRelease])
      ∧ (t.ct.mode = .run → s.tm.active ≠ .none ∧ t.tm.active = s.tm.active)

/-- R134, R141, R147, R148, R152, R154: the stored words change only by a table write access, a byte write
access, a scrub visit, the end of the sweep, and an access cut by the reset input. That power-on and the time of
the sweep leave them as they stand until the sweep's end, and that no command makes a changed bit, are the
model's (notes/assumptions/2.md, 14.md). -/
def Obligations.WordsChangeOnlyByWriteAccesses : Prop :=
  ∀ (c : Instr) (s t : State),
    c ∉ [Instr.tableWriteAccess, .byteWriteAccess, .scrubVisit, .sweepComplete, .resetAssert] →
    exec c s = .next t → ∀ i : Nat, storedAt t.tm i = storedAt s.tm i

/-- R114: only QUOTA-SET and power-on make a quota entry present, absent or larger; only commitments lower
one. -/
def Obligations.QuotaIsNeverReturned : Prop :=
  ∀ (c : Instr) (s t : State), sparseWf .none s.bos.quota = true → exec c s = .next t → c ≠ .quotaSet →
    c ≠ .powerOn → ∀ p : Nat,
      (quotaAt s.bos p = .none → quotaAt t.bos p = .none)
        ∧ (∀ n, quotaAt s.bos p = .some n → ∃ m, quotaAt t.bos p = .some m ∧ m ≤ n)
        ∧ (c ≠ .lockArrival → c ≠ .commitCompletion → quotaAt t.bos p = quotaAt s.bos p)

/-! ### Invariants -/

/-- Every invariant of this file holds right after power-on. -/
def Obligations.InvariantsHoldAtReset : Prop :=
  StoresCanonical State.reset ∧ SettingsSound State.reset ∧ QueuesBounded State.reset ∧ RingAligned State.reset
    ∧ BinsSound State.reset ∧ BuffersApart State.reset ∧ AlertsSingle State.reset ∧ ErrorBands State.reset
    ∧ WritesGuarded State.reset ∧ HandlersOrdered State.reset

/-- Every step keeps the canonical form of table words, quotas, tally fields and map buffers. -/
def Obligations.StepKeepsStoresCanonical : Prop :=
  ∀ s t : State, StoresCanonical s → step s = .next t → StoresCanonical t

/-- R19: every step keeps the configuration sound. -/
def Obligations.StepKeepsSettingsSound : Prop :=
  ∀ s t : State, SettingsSound s → step s = .next t → SettingsSound t

/-- R165, R167, R44, R71: every step keeps every queue within its capacity. -/
def Obligations.StepKeepsQueuesBounded : Prop :=
  ∀ s t : State, QueuesBounded s → step s = .next t → QueuesBounded t

/-- R10: every step keeps the lug ring aligned with the lug sequence. -/
def Obligations.StepKeepsRingAligned : Prop :=
  ∀ s t : State, RingAligned s → step s = .next t → RingAligned t

/-- R104: every step keeps the load of bins 1 to 47 within the capacity, the reservations of committed slots
covered. -/
def Obligations.StepKeepsBinLoadsWithinCapacity : Prop :=
  ∀ s t : State, BinsSound s → step s = .next t → BinsSound t

/-- R28: every step keeps each map buffer 0 to 23 either once on the free list or held by one slot: none is in
two places and none is lost, and a slot without a board holds none. That the advance frees a buffer still held by
the slot it overwrites is the model's (notes/assumptions/40.md). -/
def Obligations.StepKeepsMapBuffersApart : Prop :=
  ∀ s t : State, BuffersApart s → step s = .next t → BuffersApart t

/-- R170: every step keeps at most one ALERT of each kind waiting. -/
def Obligations.StepKeepsOneAlertOfEachKind : Prop :=
  ∀ s t : State, AlertsSingle s → step s = .next t → AlertsSingle t

/-- R158, R159: every step keeps both ports within the bands of their error states. -/
def Obligations.StepKeepsErrorBands : Prop :=
  ∀ s t : State, ErrorBands s → step s = .next t → ErrorBands t

/-- R13, R44, R48, R26: every step keeps STARTING in STOP, no lug queued while no job runs, no lug queued twice or
while its own job runs, and a scan state with every PRESENT board. -/
def Obligations.StepKeepsHandlersOrdered : Prop :=
  ∀ s t : State, HandlersOrdered s → step s = .next t → HandlersOrdered t

/-- R143: no step but the end of the sweep changes the value of a word, of at most two changed bits, in a page
in use, and what guards the pages is kept. -/
def Obligations.StepKeepsPagesInUse : Prop :=
  ∀ s t : State, WritesGuarded s → step s = .next t → WritesGuarded t
    ∧ (s.pending.head? ≠ .some .sweepComplete → sparseWf blankWord s.tm.words = true →
        ∀ i : Nat, pageInUse s (i / 256) = true → popCount (storedAt s.tm i).changed ≤ 2 →
          (storedAt t.tm i).written = (storedAt s.tm i).written)

/-! ### The chain -/

/-- R1, R2: a count below P + tol adds 1 to c and may hand the switch point of the lug at D_trim − 1; a count to
P + tol or above is a missing index: counted, alerted, the advance synthesized. That a lug step hands one switch
point is kept by a flag (notes/assumptions/10.md), and both commands are the one count event (6.md). -/
def Obligations.CountEventsCountOrSynthesizeTheAdvance : Prop :=
  ∀ s : State, s.resetPin = false →
    let g := s.settings
    let c := s.ct.c + 1
    (g.countsPerStep + g.tol ≤ c →
      exec .encoderCount s = .next (advance (raiseAlert
          { s with ct := { s.ct with c := c, missing := satInc s.ct.missing } } .chain) true)
        ∧ exec .missingIndex s = exec .encoderCount s)
    ∧ (c < g.countsPerStep + g.tol →
      exec .encoderCount s = .next
        (if 0 < g.lead ∧ c + g.lead = g.countsPerStep ∧ s.ct.switchHanded = false then
          { s with
            ct := { s.ct with c := c, switchHanded := true }
            handed := { s.handed with switches := s.handed.switches ++ [lugAt s.ct.seq (g.dTrim - 1)] } }
        else { s with ct := { s.ct with c := c } }))

/-- R3: an index below P − tol is spurious and only counted; any other is accepted with the advance, a slip
counted and alerted first when 2 × |c − P| > tol. A count that finds c above P + tol synthesizes the advance. -/
def Obligations.LugIndexIsSpuriousOrAdvances : Prop :=
  ∀ s : State, s.resetPin = false →
    let g := s.settings
    (s.ct.c + g.tol < g.countsPerStep →
      exec .lugIndex s = .next { s with ct := { s.ct with spurious := satInc s.ct.spurious } })
    ∧ (g.countsPerStep ≤ s.ct.c + g.tol → (g.tol : Int) < 2 * |(s.ct.c : Int) - g.countsPerStep| →
      exec .lugIndex s = .next (advance (raiseAlert
          { s with ct := { s.ct with slip := satInc s.ct.slip } } .chain) false))
    ∧ (g.countsPerStep ≤ s.ct.c + g.tol → 2 * |(s.ct.c : Int) - g.countsPerStep| ≤ g.tol →
      exec .lugIndex s = .next (advance s false))
    ∧ (g.countsPerStep + g.tol < s.ct.c →
      exec .encoderCount s = .next (advance (raiseAlert
          { s with ct := { s.ct with c := s.ct.c + 1, missing := satInc s.ct.missing } } .chain) true))

/-- R5 to R9: the advance clears c, adds 1 to the sequence, writes the record of the new lug at its slot and no
other slot, queues its LUG frame on U and hands over the arrivals, each with the lug that reaches its offset. The flag
that keeps the switch point single, and the freeing of a buffer that the slot still held, are the model's
(notes/assumptions/10.md, 40.md). -/
def Obligations.AdvanceBringsTheNextLug : Prop :=
  ∀ (s : State) (synthesized : Bool), (s.ct.starting = true → s.ct.mode = .stop) →
    let g := s.settings
    let seq := s.ct.seq + 1
    let lost := s.ct.mode = .run ∧ (s.lu.u.link = .down ∨ s.lu.u.errState = .failed)
    let slot : Slot := { Slot.empty seq with
      origin := s.ct.mode
      board := if lost then .unscanned else .none
      cause := if lost then .some .unscanned else .none }
    let moved : State := setSlot { s with
      ct := { s.ct with c := 0, seq := seq, switchHanded := false }
      sa := { s.sa with freeList := s.sa.freeList ++ (slotAt s seq).buffer.toList } } seq slot
    let t := advance s synthesized
    t = { enqueue moved .U (.frame 0 (makeFrame 12 g.ownAddress 31 seq
            [byte (modeCode s.ct.mode), if synthesized then 1 else 0, byte (boardCode slot.board)])) with
          handed := { s.handed with
            deadlines := s.handed.deadlines ++ [seq - BitVec.ofNat 16 (g.dScanwin + 1)]
            locks := s.handed.locks ++ [seq - BitVec.ofNat 16 g.dLock]
            optLocks := s.handed.optLocks ++ [seq - BitVec.ofNat 16 g.dLock]
            switches := s.handed.switches ++
              (if s.ct.switchHanded then [] else [seq - BitVec.ofNat 16 g.dTrim])
            sorts := s.handed.sorts ++ [seq - BitVec.ofNat 16 g.dSort] } }
      ∧ slotAt t seq = slot ∧ otherSlotsKept seq s t
      ∧ unchangedBut [.ct, .ring, .sa, .lu, .handed, .freeCount] s t

/-! ### Scan assembly -/

/-- R24, R25, R27: a BOARD-OPEN too short, or refused by a condition of Table 2-2 in its order, is taken and
counted, and the loss run falls by 1; with no buffer free the board is recorded UNSCANNED. -/
def Obligations.BoardOpenRefusals : Prop :=
  ∀ (s : State) (p : Port) (f : Frame) (rest : List (Port × Frame)), ScanWaiting s p f rest 1 0 →
    let n := s.sa.counts
    let off := offset s f.tag
    let sl := slotAt s f.tag
    let lead := ∃ h : Fin 8, num8 f.body 0 = h.val ∧ s.sa.cache.heads[h].lead = true
    let ends (c : ScanCounts) : State := { scanTaken s rest with
      sa := { s.sa with counts := c, lossRun := s.sa.lossRun - 1 } }
    (f.body.length < 5 → exec .boardOpen s = .next (ends { n with shortBody := satInc n.shortBody }))
    ∧ (5 ≤ f.body.length →
      (s.settings.dScanwin < off →
        exec .boardOpen s = .next (ends { n with lateOpen := satInc n.lateOpen }))
      ∧ (off ≤ s.settings.dScanwin → sl.origin ≠ .run →
        exec .boardOpen s = .next (ends { n with wrongMode := satInc n.wrongMode }))
      ∧ (off ≤ s.settings.dScanwin → sl.origin = .run → sl.board ≠ .none →
        exec .boardOpen s = .next (ends { n with duplicate := satInc n.duplicate }))
      ∧ (off ≤ s.settings.dScanwin → sl.origin = .run → sl.board = .none → ¬ lead →
        exec .boardOpen s = .next (ends { n with notLead := satInc n.notLead }))
      ∧ (off ≤ s.settings.dScanwin → sl.origin = .run → sl.board = .none → lead → s.sa.freeList = [] →
        exec .boardOpen s = .next (setSlot (ends { n with noBuffer := satInc n.noBuffer }) f.tag
          { sl with board := .unscanned, cause := .some .noBuffer })))

/-- R26, R28, R34, R37: an accepted BOARD-OPEN writes the board fields, takes the oldest free buffer with every
cell 0, clears the cursors that name its tag, and sets LOSS while the loss run is above 0. With no head expected
the scan ends at once. -/
def Obligations.BoardOpenAccepted : Prop :=
  (∀ (c : HeadCache) (h : Fin 8), (participatingHeads c).getLsbD h.val = c.heads[h].participating)
  ∧ ∀ (s : State) (p : Port) (f : Frame) (rest : List (Port × Frame)) (h : Fin 8) (b : Fin 24)
    (free : List Nat), ScanWaiting s p f rest 1 5 → offset s f.tag ≤ s.settings.dScanwin →
    (slotAt s f.tag).origin = .run → (slotAt s f.tag).board = .none → num8 f.body 0 = h.val →
    s.sa.cache.heads[h].lead = true → s.sa.freeList = b.val :: free →
    let endsTake (t : State) : State := { t with sa := { t.sa with lossRun := t.sa.lossRun - 1 } }
    ∃ t, (participatingHeads s.sa.cache ≠ 0 → exec .boardOpen s = .next (endsTake t))
      ∧ (participatingHeads s.sa.cache = 0 → exec .boardOpen s = .next (endsTake
          (let sl := slotAt t f.tag
           if 0 < s.sa.lossRun then
             if s.settings.policy = .recycle then
               setSlot t f.tag { sl with
                 scan := .some .partialScan, partialFlag := true, cause := .some .partialScan
                 optState := if sl.optState = .none then .skipped else sl.optState }
             else if sl.optState = .none then
               offerLug (setSlot t f.tag { sl with scan := .some .partialScan, partialFlag := true }) f.tag
             else setSlot t f.tag { sl with scan := .some .partialScan, partialFlag := true }
           else if sl.optState = .none then offerLug (setSlot t f.tag { sl with scan := .some .complete }) f.tag
           else setSlot t f.tag { sl with scan := .some .complete })))
      ∧ slotAt t f.tag = { slotAt s f.tag with
          board := .present
          len := min (num16 f.body 1) 264
          width := num16 f.body 3
          wc := (s.sa.cache.thresholds.filter fun x => x ≤ num16 f.body 3).length
          expected := participatingHeads s.sa.cache
          closed := 0, scan := .some .opened, loss := decide (0 < s.sa.lossRun), partialFlag := false
          buffer := .some b.val }
      ∧ otherSlotsKept f.tag s t
      ∧ t.sa.freeList = free
      ∧ (∀ c : Fin 24, t.sa.buffers[c] = if c = b then [] else s.sa.buffers[c])
      ∧ (∀ k : Fin 8, t.sa.cursors[k] =
          if s.sa.cursors[k].any (fun x => x.tag == f.tag) then .none else s.sa.cursors[k])
      ∧ t.sa.lossRun = s.sa.lossRun ∧ t.sa.counts = s.sa.counts ∧ t.sa.cache = s.sa.cache
      ∧ t.lu = (scanTaken s rest).lu ∧ unchangedBut [.ring, .sa, .lu] s t

/-- R24, R30 to R33, R35, R36: the first checks of Table 2-3 count and end the frames they fail; an admitted PROFILE
sets its head's window or makes the cursor absent, an admitted PROFILE-CONT goes on from the cursor that names
its tag, and their cells go one by one to the buffer of the board's slot and to no other, the bad codes and excess
cells met being counted. What cells do once the lock freed the buffer is the model's (notes/assumptions/47.md). -/
def Obligations.ScannerFramesAreAdmittedAndFillWindows : Prop :=
  (∀ (s : State) (p : Port) (f : Frame) (rest : List (Port × Frame)) (i : Instr) (cls fixed : Nat),
    (i, cls, fixed) ∈ [(Instr.profile, 2, 7), (.profileCont, 3, 1), (.boardClose, 4, 1)] →
    ScanWaiting s p f rest cls 0 →
    let n := s.sa.counts
    let head := num8 f.body 0
    let takes := ∃ h : Fin 8, head = h.val ∧ s.sa.cache.heads[h].participating = true
    let ends (c : ScanCounts) : State := { scanTaken s rest with
      sa := { s.sa with counts := c, lossRun := s.sa.lossRun - 1 } }
    (f.body.length < fixed → exec i s = .next (ends { n with shortBody := satInc n.shortBody }))
    ∧ (fixed ≤ f.body.length → s.settings.dSort < offset s f.tag →
        exec i s = .next (ends { n with unknownLug := satInc n.unknownLug }))
    ∧ (fixed ≤ f.body.length → offset s f.tag ≤ s.settings.dSort → ¬ takes →
        exec i s = .next (ends { n with foreignHead := satInc n.foreignHead }))
    ∧ (fixed ≤ f.body.length → offset s f.tag ≤ s.settings.dSort → takes →
        (slotAt s f.tag).board ≠ .present →
        exec i s = .next (ends { n with noBoard := satInc n.noBoard })))
  ∧ (∀ (s : State) (p : Port) (f : Frame) (rest : List (Port × Frame)) (h : Fin 8),
    num8 f.body 0 = h.val → offset s f.tag ≤ s.settings.dSort →
    s.sa.cache.heads[h].participating = true → (slotAt s f.tag).board = .present →
    let n := s.sa.counts
    let opened := (slotAt s f.tag).scan = .some .opened
    let z1 := num8 f.body 1
    let z2 := num8 f.body 2
    let s1 := num16 f.body 3
    let s2 := num16 f.body 5
    let mirrored := s.sa.cache.heads[h].mirrored
    let ends (sa : ScanAssembler) : State := { scanTaken s rest with sa := { sa with lossRun := s.sa.lossRun - 1 } }
    (ScanWaiting s p f rest 2 7 →
      (¬ opened → exec .profile s = .next (ends { s.sa with counts := { n with lateProfile := satInc n.lateProfile } }))
      ∧ (opened → (z2 < z1 ∨ 7 < z2 ∨ s2 < s1 ∨ 263 < s2) →
        exec .profile s = .next (ends { s.sa with
          cursors := s.sa.cursors.set h .none, counts := { n with badWindow := satInc n.badWindow } }))
      ∧ (opened → ¬ (z2 < z1 ∨ 7 < z2 ∨ s2 < s1 ∨ 263 < s2) →
        exec .profile s = .next (ends (fillCells s h
          { tag := f.tag, z1 := z1, z2 := z2, s1 := s1, s2 := s2, mirrored := mirrored,
            position := .some (z1, if mirrored then s2 else s1) } (f.body.drop 7)).sa)))
    ∧ (ScanWaiting s p f rest 3 1 →
      (¬ opened →
        exec .profileCont s = .next (ends { s.sa with counts := { n with lateProfile := satInc n.lateProfile } }))
      ∧ (opened → (∀ c ∈ s.sa.cursors[h], c.tag ≠ f.tag) →
        exec .profileCont s = .next (ends { s.sa with counts := { n with noWindow := satInc n.noWindow } }))
      ∧ (∀ c : Cursor, opened → s.sa.cursors[h] = .some c → c.tag = f.tag →
        exec .profileCont s = .next (ends (fillCells s h c (f.body.drop 1)).sa))))
  ∧ ∀ (s : State) (h : Fin 8) (cur : Cursor) (raws : List Byte),
    let n := s.sa.counts
    let fills (cells : Sparse (BitVec 4)) : Filling :=
      raws.foldl (fillCell s.sa.cache.heads[h]) { cursor := cur, cells := cells, bad := 0, excess := 0 }
    let adds (x : Word) (k : Nat) : Word := BitVec.ofNat 16 (min 65535 (x.toNat + k))
    let leaves (w : Filling) (buffers : Vector (Sparse (BitVec 4)) 24) : State := { s with sa := { s.sa with
      cursors := s.sa.cursors.set h (.some w.cursor)
      buffers := buffers
      counts := { n with badCode := adds n.badCode w.bad, excessCells := adds n.excessCells w.excess } } }
    (∀ b : Fin 24, (slotAt s cur.tag).buffer = .some b.val →
      fillCells s h cur raws = leaves (fills s.sa.buffers[b]) (s.sa.buffers.set b (fills s.sa.buffers[b]).cells))
    ∧ ((slotAt s cur.tag).buffer = .none → fillCells s h cur raws = leaves (fills []) s.sa.buffers)

/-- R29, R32, R33: one cell at a cursor: excess if exhausted; a bad code or an uncovered zone leaves the map; any
other keeps the larger class at the cursor's cell alone. The cursor then moves as R32 says. -/
def Obligations.EachCellGoesToTheCursorsPlace : Prop :=
  ∀ (e : HeadEntry) (w : Filling) (raw : Byte), sparseWf 0 w.cells = true →
    let t := fillCell e w raw
    (w.cursor.position = .none → t = { w with excess := w.excess + 1 })
    ∧ ∀ z st : Nat, w.cursor.position = .some (z, st) →
      t.excess = w.excess
      ∧ t.bad = (if 63 < raw.toNat then w.bad + 1 else w.bad)
      ∧ (∀ k : Nat, (sparseGet 0 t.cells k).toNat =
          if k = z * 264 + st ∧ raw.toNat ≤ 63 ∧ e.firstZone ≤ z ∧ z ≤ e.lastZone then
            max (sparseGet 0 w.cells k).toNat ((e.classMap.toList.getD raw.toNat 0).toNat)
          else (sparseGet 0 w.cells k).toNat)
      ∧ sparseWf 0 t.cells = true
      ∧ t.cursor = { w.cursor with position :=
          if w.cursor.mirrored then
            if w.cursor.s1 < st then (if w.cursor.z2 < z then .none else .some (z, st - 1))
            else if w.cursor.z2 < z + 1 then .none else .some (z + 1, w.cursor.s2)
          else
            if st < w.cursor.s2 then (if w.cursor.z2 < z then .none else .some (z, st + 1))
            else if w.cursor.z2 < z + 1 then .none else .some (z + 1, w.cursor.s1) }

/-- R36, R37, R38: a BOARD-CLOSE past the first checks is late, a duplicate, or joins the closed set, and the
scan completes when every expected head has closed; a deadline ends an OPEN scan partial. A completion with LOSS
set and a deadline act by the partial policy; a lug of state NONE is offered or skipped. -/
def Obligations.ScansEndAtTheLastCloseOrTheDeadline : Prop :=
  ∀ s : State, s.resetPin = false →
    let ended (s : State) (lug : LugSeq) (whole : Bool) : State :=
      let sl := slotAt s lug
      let left : Slot := if whole then { sl with scan := .some .complete }
        else { sl with scan := .some .partialScan, partialFlag := true }
      if whole = false ∧ s.settings.policy = .recycle then
        setSlot s lug { left with
          cause := .some .partialScan
          optState := if sl.optState = .none then .skipped else sl.optState }
      else if sl.optState = .none then offerLug (setSlot s lug left) lug
      else setSlot s lug left
    (∀ (p : Port) (f : Frame) (rest : List (Port × Frame)) (h : Fin 8), ScanWaiting s p f rest 4 1 →
      num8 f.body 0 = h.val → offset s f.tag ≤ s.settings.dSort →
      s.sa.cache.heads[h].participating = true → (slotAt s f.tag).board = .present →
      let n := s.sa.counts
      let sl := slotAt s f.tag
      let ends (c : ScanCounts) : State := { scanTaken s rest with
        sa := { s.sa with counts := c, lossRun := s.sa.lossRun - 1 } }
      let joined : Slot := { sl with closed := sl.closed ||| (1#8 <<< h.val) }
      (sl.scan ≠ .some .opened → exec .boardClose s = .next (ends { n with lateClose := satInc n.lateClose }))
      ∧ (sl.scan = .some .opened → sl.closed.getLsbD h = true →
        exec .boardClose s = .next (ends { n with duplicateClose := satInc n.duplicateClose }))
      ∧ (sl.scan = .some .opened → sl.closed.getLsbD h = false →
        (∃ k : Fin 8, sl.expected.getLsbD k = true ∧ joined.closed.getLsbD k = false) →
        exec .boardClose s = .next (setSlot (ends n) f.tag joined))
      ∧ (sl.scan = .some .opened → sl.closed.getLsbD h = false →
        (∀ k : Fin 8, sl.expected.getLsbD k = true → joined.closed.getLsbD k = true) →
        ∃ t, t = ended (setSlot (scanTaken s rest) f.tag joined) f.tag (!sl.loss)
          ∧ exec .boardClose s = .next { t with sa := { t.sa with lossRun := t.sa.lossRun - 1 } }))
    ∧ ∀ (lug : LugSeq) (rest : List LugSeq), s.handed.deadlines = lug :: rest →
      let s1 : State := { s with handed := { s.handed with deadlines := rest } }
      exec .scanDeadline s = .next
        (if (slotAt s lug).board = .present ∧ (slotAt s lug).scan = .some .opened then ended s1 lug false else s1)

/-- R40: a SCAN queue overflow counts a loss, sets LOSS on every OPEN scan and no other slot, sets the loss run
to the frames then waiting, and raises a SCAN-LOSS alert. -/
def Obligations.ScanOverflowMarksEveryOpenScan : Prop :=
  ∀ (s : State) (n : Nat), s.resetPin = false → s.handed.scanOverflows = n + 1 →
    ∃ r : Vector Slot 64,
      (∀ k : Fin 64, r[k] = if s.ring[k].scan = .some .opened then { s.ring[k] with loss := true } else s.ring[k])
        ∧ exec .scanQueueOverflow s = .next (raiseAlert { s with
            handed := { s.handed with scanOverflows := n }
            ring := r
            sa := { s.sa with
              lossRun := s.lu.scanQ.length
              counts := { s.sa.counts with scanLoss := satInc s.sa.counts.scanLoss } } } .scanLoss)

/-! ### The trim optimizer -/

/-- R44, R45, R46: an offer is turned away, meets a full queue, or joins the queue behind every lug as old or
older, and a job then starts if none runs. An offer that another rule makes is the same offer. (While no job runs
the queue is empty, R48; the join of a slot in another state than NONE or STALE is notes/assumptions/46.md.) -/
def Obligations.OffersAreJudgedInOrder : Prop :=
  ∀ (s : State) (lug : LugSeq), s.resetPin = false → (s.opt.job = .none → s.opt.queue = []) →
    let sl := slotAt s lug
    let turned := s.settings.dLock ≤ offset s lug ∨ sl.origin ≠ .run ∨ sl.board ≠ .present ∨ lug ∈ s.opt.queue
      ∨ (∃ j ∈ s.opt.job, j.lug = lug) ∨ sl.optState = .decided ∨ sl.optState = .skipped
    let now : OptState := if sl.optState = .fault then (if sl.decision.isSome then .stale else .none)
      else sl.optState
    let n := s.opt.counts
    exec (.offer lug) s = .next (offerLug s lug)
    ∧ (turned → exec (.offer lug) s = .next s)
    ∧ (¬ turned → 16 ≤ s.opt.queue.length → now = .none →
      exec (.offer lug) s = .next { setSlot s lug { sl with optState := .skipped, cause := .some .skipped } with
        opt := { s.opt with counts := { n with skipped := satInc n.skipped } } })
    ∧ (¬ turned → 16 ≤ s.opt.queue.length → now = .stale →
      exec (.offer lug) s = .next { setSlot s lug { sl with optState := .stale } with
        opt := { s.opt with counts := { n with staleOverflow := satInc n.staleOverflow } } })
    ∧ (¬ turned → s.opt.queue.length < 16 → ∃ older younger,
      s.opt.queue = older ++ younger ∧ (∀ x ∈ older, offset s lug ≤ offset s x)
        ∧ (∀ x ∈ younger.head?, offset s x < offset s lug)
        ∧ exec (.offer lug) s = .next (startJob
            { setSlot s lug { sl with optState := if now = .none then .waiting else now } with
              opt := { s.opt with queue := older ++ lug :: younger } }))

/-- R48 to R51: with no job running, the head of the queue becomes the job's lug with its values latched, the
slot RUNNING, the quick flag and the snapshot as they stand; its first word is asked for. The model's own: that the
job holds its own copy of the length, the width class and the map (notes/assumptions/20.md), and that it reads a
clear map where the slot holds no buffer any more (notes/assumptions/51.md). -/
def Obligations.JobStartLatchesTheHeadOfTheQueue : Prop :=
  ∀ s : State, ((s.opt.job ≠ .none ∨ s.opt.queue = []) → startJob s = s)
    ∧ ∀ (lug : LugSeq) (rest : List LugSeq) (sid : SetId), s.opt.job = .none → s.opt.queue = lug :: rest →
      s.tm.active = .some sid →
      let sl := slotAt s lug
      let quick := decide (s.settings.quick ≤ rest.length ∨ offset s lug + 1 = s.settings.dLock)
      let n := s.opt.counts
      ∃ (snap : Snapshot) (cells : Sparse (BitVec 4)),
        (sl.buffer = .none → cells = []) ∧ (∀ b : Fin 24, sl.buffer = .some b.val → cells = s.sa.buffers[b])
        ∧ (∀ b : Fin 48, b.val ∈ snap.openBins ↔ b = 0 ∨ (s.bos.bins[b].outOfService = false
            ∧ s.bos.bins[b].fill + s.bos.bins[b].reserved < s.bos.bins[b].capacity))
        ∧ (∀ p : Nat, p < 640 → (p ∈ snap.exhausted ↔ quotaAt s.bos p = .some 0))
        ∧ startJob s = askJobWord { setSlot s lug { sl with optState := .running } with
            opt := {
              queue := rest
              job := .some {
                lug := lug
                set := sid
                revision := sl.revision
                cap := sl.cap
                cuts := sl.cuts
                partialFlag := sl.partialFlag
                quick := quick
                snapshot := snap
                len := sl.len
                wc := sl.wc
                cells := cells
                words := []
                asked := .none
                uncorrectable := false }
              lastQuick := quick
              counts := { n with
                started := satInc n.started
                quick := if quick then satInc n.quick else n.quick } } }

/-- R52, R138: a completed read reaches the job it was made for, corrected or as uncorrectable, and the job asks
for a word it has not read, through its latched set, and for none after an uncorrectable one; the value of an
access whose job was abandoned is discarded. The words it needs are the grade rows of L1, the price of each product
of a graded candidate and the sort map word of each of a nonzero price. (The order of the words is the model's,
notes/assumptions/19.md.) -/
def Obligations.JobReadsEachWordOnce : Prop :=
  (∀ (s : State) (a : Access), s.resetPin = false → s.tm.access = .some a → a.who = .optimizer →
    let read := endAccess (noteRead s .optimizer a.index)
    (a.wanted = false → exec .optimizerRead s = .next read)
    ∧ ∀ (job : Job) (k : Nat), a.wanted = true → s.opt.job = .some job → job.asked = .some k →
      let gets (j : Job) : State := askJobWord { read with opt := { s.opt with job := .some j } }
      (∀ v : Word, (checkAt s a.index = .clean v ∨ checkAt s a.index = .single v) →
        exec .optimizerRead s = .next (gets { job with words := (k, v) :: job.words, asked := .none }))
      ∧ (checkAt s a.index = .double →
        exec .optimizerRead s = .next (gets { job with uncorrectable := true, asked := .none })))
  ∧ (∀ (s : State) (job : Job), s.opt.job = .some job →
    ((job.uncorrectable = true ∨ jobNext job = .none) → askJobWord s = s)
    ∧ ∀ (k page : Nat) (ro : Bool), job.uncorrectable = false → jobNext job = .some k →
      entryOf s.tm job.set (k / 256) = .some { page := page, readOnly := ro } →
      askJobWord s = grant { s with
        opt := { s.opt with job := .some { job with asked := .some k } }
        tm := { s.tm with waitOpt := .some (page * 256 + k % 256) } })
  ∧ ∀ job : Job,
    let has (k : Nat) : Prop := job.words.lookup k ≠ .none
    let word (k : Nat) : Word := (job.words.lookup k).getD 0
    let row (r : Nat) : Nat := 256 + 32 * (r - 1)
    let price (p : Nat) : Nat := 512 + 2 * p + if p ∈ job.snapshot.exhausted then 1 else 0
    let rowHead (k : Nat) : Prop := ∃ r, 1 ≤ r ∧ r ≤ 8 ∧ k = row r
    let rowBody (k : Nat) : Prop :=
      ∃ r m, 1 ≤ r ∧ r ≤ 8 ∧ (word (row r)).getLsbD 15 = true ∧ 1 ≤ m ∧ m ≤ 9 ∧ k = row r + m
    let product (p : Nat) : Prop := ∃ i j g, i < j ∧ j ≤ 10 ∧ 12 + 24 * j ≤ job.len ∧ (job.quick = true → i = 0)
      ∧ (∀ x ∈ job.cuts, ¬ (12 + 24 * i ≤ x ∧ x < 12 + 24 * j))
      ∧ computedGrade job.words job.cells i j = .some g
      ∧ p = (job.wc * 8 + ((match job.cap with | .some c => max g c | .none => g) - 1)) * 10 + (j - i - 1)
    let priced (k : Nat) : Prop := ∃ p, product p ∧ k = price p
    let sorted (k : Nat) : Prop := ∃ p, product p ∧ word (price p) ≠ 0 ∧ k = 1792 + p
    let all (needs : Nat → Prop) : Prop := ∀ k, needs k → has k
    (jobNext job = .none ↔ all rowHead ∧ all rowBody ∧ all priced ∧ all sorted)
    ∧ ∀ k : Nat, jobNext job = .some k → ¬ has k ∧ (rowHead k ∨ all rowHead ∧ rowBody k
      ∨ all rowHead ∧ all rowBody ∧ priced k ∨ all rowHead ∧ all rowBody ∧ all priced ∧ sorted k)

/-- R62 to R65: a completion is dropped past the lock, discarded for changed marks with the lug offered again
unless rejected, ended FAULT after an uncorrectable word, or written as the slot's decision; then a job starts if a
lug is queued. That the decision is computed from the job's own copy of the length, the width class and the map
cells, made at its start, is the model's (notes/assumptions/20.md, DEDUCED). -/
def Obligations.JobCompletionOutcomes : Prop :=
  ∀ (s : State) (job : Job), s.resetPin = false → s.opt.job = .some job → job.asked = .none →
    (job.uncorrectable = true ∨ jobNext job = .none) →
    let lug := job.lug
    let sl := slotAt s lug
    let n := s.opt.counts
    let idle (c : OptCounts) : State := { s with opt := { s.opt with job := .none, counts := c } }
    let differ := sl.revision ≠ job.revision ∨ sl.reject = true ∨ sl.cap ≠ job.cap ∨ sl.cuts ≠ job.cuts
    let below := offset s lug < s.settings.dLock
    let dropped := idle { n with discarded := satInc n.discarded }
    (¬ below → exec .jobCompletion s = .next (startJob (idle { n with abandoned := satInc n.abandoned })))
    ∧ (below → differ →
      (∀ d ∈ sl.decision, d.body = .reject → exec .jobCompletion s = .next (startJob dropped))
      ∧ (∀ d ∈ sl.decision, d.body ≠ .reject →
        exec .jobCompletion s = .next (offerLug (setSlot dropped lug { sl with optState := .stale }) lug))
      ∧ (sl.decision = .none →
        exec .jobCompletion s = .next (offerLug (setSlot dropped lug { sl with optState := .none }) lug)))
    ∧ (below → ¬ differ → job.uncorrectable = true →
      exec .jobCompletion s = .next (startJob (setSlot (idle { n with fault := satInc n.fault }) lug
        { sl with optState := .fault })))
    ∧ (below → ¬ differ → job.uncorrectable = false →
      exec .jobCompletion s = .next (startJob (setSlot (idle { n with decided := satInc n.decided }) lug
        { sl with
          optState := .decided
          decision := .some (decisionOf job job.len job.wc job.cells) })))

/-- R47: at its lock a queued lug leaves the queue, and the running job's lug has its job abandoned, its request
withdrawn; a job then starts if none runs and a lug is queued. No slot but that of a job started changes. -/
def Obligations.OptimizerLockWithdrawsOrAbandons : Prop :=
  ∀ (s : State) (lug : LugSeq) (rest : List LugSeq), s.resetPin = false → s.handed.optLocks = lug :: rest →
    let s1 : State := { s with handed := { s.handed with optLocks := rest } }
    let jobs := ∃ j ∈ s.opt.job, j.lug = lug
    (lug ∈ s.opt.queue → exec .optimizerLock s = .next (startJob
        { s1 with opt := { s.opt with queue := s.opt.queue.filter (· ≠ lug) } }))
    ∧ (lug ∉ s.opt.queue → jobs → exec .optimizerLock s = .next (startJob
        { s1 with
          opt := { s.opt with
            job := .none
            counts := { s.opt.counts with abandoned := satInc s.opt.counts.abandoned } }
          tm := { s.tm with
            waitOpt := .none
            access := s.tm.access.map fun a =>
              if a.who = .optimizer then { a with wanted := false } else a } }))
    ∧ (lug ∉ s.opt.queue → ¬ jobs → exec .optimizerLock s = .next (startJob s1))

/-- R53, R57 to R61: a job decides the eligible piece of the highest price, then the larger n, then the smaller
i, over all pairs the board, the mode and the cuts leave; with none it decides CULL. The price is the over-quota one
of a product exhausted in the snapshot, and the bin the primary if open, else the alternate if open. -/
def Obligations.TheBestEligiblePieceIsDecided : Prop :=
  ∀ (job : Job) (len wc : Nat) (cells : Sparse (BitVec 4)),
    let d := decisionOf job len wc cells
    let word (k : Nat) : Word := (job.words.lookup k).getD 0
    let bin (b : Byte) : Option Nat := if b.toNat < 48 then .some b.toNat else .none
    let opened (b : Option Nat) : Prop := ∃ n, b = .some n ∧ n ∈ job.snapshot.openBins
    let binned (p : PieceData) : Prop :=
      let primary := bin ((word (1792 + p.product)).extractLsb' 8 8)
      let other := bin ((word (1792 + p.product)).extractLsb' 0 8)
      opened primary ∧ p.chosen = primary ∧ p.alternate = other
        ∨ ¬ opened primary ∧ opened other ∧ p.chosen = other ∧ p.alternate = .none
    let eligiblePiece (p : PieceData) : Prop :=
      p.i < p.j ∧ p.j ≤ 10 ∧ 12 + 24 * p.j ≤ len ∧ (job.quick = true → p.i = 0)
        ∧ (∀ x ∈ job.cuts, ¬ (12 + 24 * p.i ≤ x ∧ x < 12 + 24 * p.j))
        ∧ computedGrade job.words cells p.i p.j = .some p.grade
        ∧ p.final = (match job.cap with | .some c => max p.grade c | .none => p.grade)
        ∧ p.product = ((wc * 8) + (p.final - 1)) * 10 + (p.j - p.i - 1)
        ∧ p.value = (word (512 + 2 * p.product + if p.product ∈ job.snapshot.exhausted then 1 else 0)).toNat
        ∧ p.value ≠ 0 ∧ binned p
    d.wc = wc ∧ d.set = .some job.set ∧ d.quick = job.quick ∧ d.partialFlag = job.partialFlag
    ∧ d.revision = job.revision
    ∧ (∀ p, d.body = .piece p → eligiblePiece p ∧ ∀ q, eligiblePiece q → q = p ∨ q.value < p.value
        ∨ q.value = p.value ∧ (q.j - q.i < p.j - p.i ∨ q.j - q.i = p.j - p.i ∧ p.i < q.i))
    ∧ (d.body = .cull ↔ ∀ p, ¬ eligiblePiece p) ∧ d.body ≠ .reject

/-- R54 to R57: the computed grade is the first enabled row whose allowances, pro-rated to the piece, hold the
count of every class over the cells of the map, and whose end-zone classes no cell of either end zone holds; the
rows stand in L1 as Table 11-8 gives them. -/
def Obligations.ComputedGradeIsTheFirstRowPassed : Prop :=
  ∀ (words : List (Nat × Word)) (cells : Sparse (BitVec 4)) (i j g : Nat), sparseWf 0 cells = true →
    (∀ x ∈ cells, x.1 < 2112) → i < j → j ≤ 10 →
    let a := 12 + 24 * i
    let b := 12 + 24 * j
    let count (c : Nat) : Nat := ((List.range 2112).filter fun k =>
      (sparseGet 0 cells k).toNat = c ∧ a ≤ k % 264 ∧ k % 264 < b).length
    let word (r k : Nat) : Word := (words.lookup (256 + 32 * (r - 1) + k)).getD 0
    let allowance (r c : Nat) : Nat :=
      if c % 2 = 1 then ((word r ((c + 1) / 2)).extractLsb' 8 8).toNat else ((word r (c / 2)).extractLsb' 0 8).toNat
    let zone (r : Nat) : Nat := min 48 ((word r 0).extractLsb' 0 8).toNat
    let passes (r : Nat) : Prop := (word r 0).getLsbD 15 = true
      ∧ (∀ c, 1 ≤ c → c ≤ 15 → allowance r c = 255 ∨ count c ≤ allowance r c * (j - i) / 2)
      ∧ ∀ k c, k < 2112 → (sparseGet 0 cells k).toNat = c → 1 ≤ c → (word r 9).getLsbD c = true →
          ¬ (a ≤ k % 264 ∧ k % 264 < min (a + zone r) b) ∧ ¬ (max (b - zone r) a ≤ k % 264 ∧ k % 264 < b)
    (computedGrade words cells i j = .some g ↔
      1 ≤ g ∧ g ≤ 8 ∧ passes g ∧ ∀ r, 1 ≤ r → r < g → ¬ passes r)

/-! ### Grader marks -/

/-- R72, R73, R79, R80: a mark refused by Table 4-2, whatever its kind, changes no slot, queue or job; it is
answered with the reply of the first condition that holds and counted. -/
def Obligations.MarksRefusedChangeNoSlot : Prop :=
  ∀ (s : State) (p : Port) (f : Frame) (rest : List (Port × Frame)) (i : Instr), MarkWaiting s p f rest →
    let kind := num8 f.body 0
    let arg := num16 f.body 1
    (i = .gradeMark ∧ kind = 1 ∨ i = .cutMark ∧ kind = 2 ∨ i = .rejectMark ∧ kind = 3
      ∨ i = .clearMark ∧ kind = 4 ∨ i = .badMarkKind ∧ (kind = 0 ∨ 4 < kind)) →
    let off := offset s f.tag
    let sl := slotAt s f.tag
    let n := s.mh
    let live := off ≤ s.settings.dSort
    let open_ := live ∧ off < s.settings.dLock
    let board := open_ ∧ sl.board = .present ∧ sl.origin = .run
    let bad := kind = 0 ∨ 4 < kind ∨ kind = 1 ∧ (arg < 1 ∨ 8 < arg) ∨ kind = 2 ∧ 263 < arg
    let answered (code : Byte) (rev : Byte) (cuts : Nat) (c : MarkCounts) (t : TallyField) : State :=
      { enqueue (markTaken s rest) p (.frame 1 (makeFrame 9 s.settings.ownAddress (frameOrigin f) f.tag
          ([code, byte kind] ++ be16n arg ++ [rev, byte cuts]))) with
        mh := c, tu := { s.tu with current := s.tu.current.add t 1 } }
    (¬ live → exec i s = .next (answered 1 0 0 { n with unknownLug := satInc n.unknownLug } .marksRefused))
    ∧ (live → s.settings.dLock ≤ off →
      exec i s = .next (answered 2 sl.revision sl.cuts.length { n with late := satInc n.late } .marksLate))
    ∧ (open_ → sl.board ≠ .present ∨ sl.origin ≠ .run → exec i s = .next
      (answered 3 sl.revision sl.cuts.length { n with noBoard := satInc n.noBoard } .marksRefused))
    ∧ (board → bad → exec i s = .next
      (answered 4 sl.revision sl.cuts.length { n with badMark := satInc n.badMark } .marksRefused))
    ∧ (board → ¬ bad → kind = 2 → 4 ≤ sl.cuts.length → exec i s = .next
      (answered 5 sl.revision sl.cuts.length { n with full := satInc n.full } .marksRefused))

/-- R74 to R76, R79, R80: an accepted GRADE or CUT advances the revision, sets the cap or appends the station,
acts on the optimization state by Table 4-3 (or stamps the REJECT decision of a rejected slot), and is answered
ACCEPTED with the revision and cut count it leaves. -/
def Obligations.GradeAndCutMarksAccepted : Prop :=
  ∀ (s : State) (p : Port) (f : Frame) (rest : List (Port × Frame)), MarkWaiting s p f rest →
    offset s f.tag ≤ s.settings.dSort → offset s f.tag < s.settings.dLock →
    (slotAt s f.tag).board = .present → (slotAt s f.tag).origin = .run →
    let kind := num8 f.body 0
    let arg := num16 f.body 1
    let sl := slotAt s f.tag
    let offered := sl.optState = .none ∧ sl.scan ≠ .some .opened ∨ sl.optState = .decided
      ∨ sl.optState = .stale ∨ sl.optState = .fault
    let effect (marked : Slot) : State :=
      if sl.reject then setSlot (markTaken s rest) f.tag
        { marked with decision := sl.decision.map fun d => { d with revision := sl.revision + 1 } }
      else
        let s1 := setSlot (markTaken s rest) f.tag
          { marked with optState := if sl.optState = .decided then .stale else sl.optState }
        if offered then offerLug s1 f.tag else s1
    let answered (s1 : State) (cuts : Nat) (c : MarkCounts) : State :=
      { enqueue s1 p (.frame 1 (makeFrame 9 s.settings.ownAddress (frameOrigin f) f.tag
          ([0, byte kind] ++ be16n arg ++ [sl.revision + 1, byte cuts]))) with
        mh := c, tu := { s.tu with current := s.tu.current.add .marksAccepted 1 } }
    (kind = 1 → 1 ≤ arg → arg ≤ 8 →
      exec .gradeMark s = .next (answered
        (effect { sl with revision := sl.revision + 1, cap := .some arg }) sl.cuts.length
        { s.mh with acceptedGrade := satInc s.mh.acceptedGrade }))
    ∧ (kind = 2 → arg ≤ 263 → sl.cuts.length < 4 →
      exec .cutMark s = .next (answered
        (effect { sl with revision := sl.revision + 1, cuts := sl.cuts ++ [arg] }) (sl.cuts.length + 1)
        { s.mh with acceptedCut := satInc s.mh.acceptedCut }))

/-- R74, R77, R79, R80: an accepted REJECT sets the reject flag and writes the REJECT decision at the new
revision, the state DECIDED, withdraws the lug from the queue, and is answered ACCEPTED. -/
def Obligations.RejectMarksAccepted : Prop :=
  ∀ (s : State) (p : Port) (f : Frame) (rest : List (Port × Frame)), MarkWaiting s p f rest →
    offset s f.tag ≤ s.settings.dSort → offset s f.tag < s.settings.dLock →
    (slotAt s f.tag).board = .present → (slotAt s f.tag).origin = .run → num8 f.body 0 = 3 →
    let sl := slotAt s f.tag
    exec .rejectMark s = .next
      { enqueue
          { setSlot (markTaken s rest) f.tag { sl with
              revision := sl.revision + 1
              reject := true
              optState := .decided
              decision := .some {
                body := .reject
                wc := sl.wc
                set := .none
                quick := false
                partialFlag := sl.partialFlag
                revision := sl.revision + 1 } } with
            opt := { s.opt with queue := s.opt.queue.filter (· ≠ f.tag) } }
          p (.frame 1 (makeFrame 9 s.settings.ownAddress (frameOrigin f) f.tag
            ([0, 3] ++ be16n (num16 f.body 1) ++ [sl.revision + 1, byte sl.cuts.length]))) with
        mh := { s.mh with acceptedReject := satInc s.mh.acceptedReject }
        tu := { s.tu with current := s.tu.current.add .marksAccepted 1 } }

/-- R74, R75, R78 to R80: an accepted CLEAR removes cap, cuts and reject. With the reject flag clear it acts by
Table 4-3; with it set the decision is removed and the state set by the board's scan. -/
def Obligations.ClearMarksAccepted : Prop :=
  ∀ (s : State) (p : Port) (f : Frame) (rest : List (Port × Frame)), MarkWaiting s p f rest →
    offset s f.tag ≤ s.settings.dSort → offset s f.tag < s.settings.dLock →
    (slotAt s f.tag).board = .present → (slotAt s f.tag).origin = .run → num8 f.body 0 = 4 →
    (slotAt s f.tag).scan ≠ .none →
    let sl := slotAt s f.tag
    let cleared : Slot := { sl with revision := sl.revision + 1, cap := .none, cuts := [], reject := false }
    let put (x : Slot) : State := setSlot (markTaken s rest) f.tag x
    let effect : State :=
      if sl.reject = false then
        if sl.optState = .decided then offerLug (put { cleared with optState := .stale }) f.tag
        else if sl.optState = .none ∧ sl.scan ≠ .some .opened ∨ sl.optState = .stale ∨ sl.optState = .fault then
          offerLug (put cleared) f.tag
        else put cleared
      else if sl.cause = .some .partialScan then put { cleared with decision := .none, optState := .skipped }
      else if sl.scan = .some .opened then
        put { cleared with decision := .none, optState := .none, cause := .none }
      else if s.opt.job.any (fun j => j.lug == f.tag) then
        put { cleared with decision := .none, optState := .running, cause := .none }
      else offerLug (put { cleared with decision := .none, optState := .none, cause := .none }) f.tag
    exec .clearMark s = .next
      { enqueue effect p (.frame 1 (makeFrame 9 s.settings.ownAddress (frameOrigin f) f.tag
          ([0, 4] ++ be16n (num16 f.body 1) ++ [sl.revision + 1, 0]))) with
        mh := { s.mh with acceptedClear := satInc s.mh.acceptedClear }
        tu := { s.tu with current := s.tu.current.add .marksAccepted 1 } }

/-- R71, R81: a mark too short is only counted; one lost to a full MARK queue is answered DROPPED, its kind and
argument echoed when it carries them, and counted as refused. That a lost frame of another class than GRADER-MARK is
answered too is the model's (notes/assumptions/29.md). -/
def Obligations.ShortAndDroppedMarks : Prop :=
  (∀ (s : State) (p : Port) (f : Frame) (rest : List (Port × Frame)), s.resetPin = false →
    s.lu.markQ = (p, f) :: rest → frameClass f = 8 → f.body.length < 3 →
    exec .markShortBody s = .next { markTaken s rest with
      mh := { s.mh with shortBody := satInc s.mh.shortBody } })
  ∧ ∀ (s : State) (p : Port) (f : Frame) (rest : List (Port × Frame)), s.resetPin = false →
    s.handed.markOverflows = (p, f) :: rest →
    let echo := if 3 ≤ f.body.length then f.body.take 3 else [0, 0, 0]
    exec .markQueueOverflow s = .next
      { enqueue { s with handed := { s.handed with markOverflows := rest } } p
          (.frame 1 (makeFrame 9 s.settings.ownAddress (frameOrigin f) f.tag ([6] ++ echo ++ [0, 0]))) with
        mh := { s.mh with dropped := satInc s.mh.dropped }
        tu := { s.tu with current := s.tu.current.add .marksRefused 1 } }

/-! ### Commitment, saws and sorting -/

/-- R85 to R88, R91: a lock arrival is held behind a commit in flight; else the slot's buffer joins the free
list and the slot is committed by the first case of Table 5-1, a stale decision by the stale commit rule, or is
EMPTY and left. A RECYCLE commitment keeps the cause written at lock for its count, in the model's own field
(R123, notes/assumptions/53.md). -/
def Obligations.LockArrivalCommitsByTheFirstCase : Prop :=
  ∀ (s : State) (lug : LugSeq) (rest : List LugSeq), s.resetPin = false → s.handed.locks = lug :: rest →
    let s1 : State := { s with handed := { s.handed with locks := rest } }
    let kept := slotAt s lug
    let sl : Slot := { kept with buffer := .none }
    let s2 : State := { setSlot s1 lug sl with
      sa := { s.sa with freeList := s.sa.freeList ++ kept.buffer.toList } }
    let commits (s : State) (kind : CommitKind) (saws : Option (Nat × Nat)) (bin : Option Nat)
        (d : Option Decision) (stale : Bool) : State :=
      -- what `writeCommit` leaves and the body it sends is PieceCommitmentsReserveAndTakeQuota's first half
      writeCommit s lug { kind := kind, saws := saws, bin := bin, product := .none } d
        { stale := stale, catchDiversion := false, overQuota := false }
    let caught := storeEvent s2 fun b => reserveIn b 0
    let recycles (s : State) (cause : Option RecycleCause) (stale : Bool) : State :=
      writeCommit s lug { kind := .recycle, saws := .none, bin := .none, product := .none, cause := cause } .none
        { stale := stale, catchDiversion := false, overQuota := false }
    let recycled (cause : RecycleCause) (stale : Bool) : State :=
      recycles (setSlot s2 lug { sl with cause := .some cause }) (.some cause) stale
    let judged := s.cu.inFlight = .none
    let bypassed := sl.origin = .bypass ∨ sl.origin = .run ∧ s.ct.mode = .bypass
    let boarded := judged ∧ sl.origin = .run ∧ s.ct.mode ≠ .bypass ∧ sl.board = .present
    let conflict (p : PieceData) := ∃ x ∈ sl.cuts, 12 + 24 * p.i ≤ x ∧ x < 12 + 24 * p.j
    (¬ judged → exec .lockArrival s = .next { s1 with cu := { s.cu with heldLocks := s.cu.heldLocks ++ [lug] } })
    ∧ (judged → sl.origin = .stop → exec .lockArrival s = .next s2)
    ∧ (judged → bypassed → ∀ n : Nat,
      n = (if binOpen s.settings.bypassBin (binAt s.bos s.settings.bypassBin) then s.settings.bypassBin else 0) →
      exec .lockArrival s = .next (commits (storeEvent s2 fun b => reserveIn b n) .bypass s.settings.bypassPair
        (.some n) .none false))
    ∧ (judged → sl.origin = .run → s.ct.mode ≠ .bypass → sl.board = .none → exec .lockArrival s = .next s2)
    ∧ (judged → sl.origin = .run → s.ct.mode ≠ .bypass → sl.board = .unscanned →
      exec .lockArrival s = .next (recycles s2 sl.cause false))
    ∧ (boarded → sl.reject = true →
      exec .lockArrival s = .next (commits caught .reject .none (.some 0) sl.decision false))
    ∧ (boarded → sl.reject = false → sl.decision = .none → ∀ cause : RecycleCause,
      (sl.optState = .skipped ∧ sl.cause = .some cause ∨ sl.optState = .fault ∧ cause = .fault
        ∨ (sl.optState = .running ∨ sl.optState = .waiting ∨ sl.optState = .none) ∧ cause = .lateDecision) →
      exec .lockArrival s = .next (recycled cause false))
    ∧ ∀ d : Decision, boarded → sl.reject = false → sl.decision = .some d →
      let stale : Bool := !decide (sl.optState = .decided ∧ d.revision = sl.revision)
      (d.body = .cull → exec .lockArrival s = .next (commits caught .cull .none (.some 0) (.some d) stale))
      ∧ ∀ p : PieceData, d.body = .piece p →
        (stale = true → conflict p → exec .lockArrival s = .next (recycled .cutConflict true))
        ∧ ((stale = false ∨ ¬ conflict p ∧ ∀ c ∈ sl.cap, c ≤ p.final) →
          exec .lockArrival s = .next (commitPiece s2 lug d p stale))
        ∧ ∀ (c : Nat) (sid : SetId) (e : MapEntry), stale = true → ¬ conflict p → sl.cap = .some c →
          p.final < c → s.tm.active = .some sid →
          let product := ((d.wc * 8) + (c - 1)) * 10 + (p.j - p.i - 1)
          entryOf s.tm sid ((1792 + product) / 256) = .some e →
          exec .lockArrival s = .next (grant { s2 with
            cu := { s.cu with inFlight := .some {
              lug := lug, decision := { d with body := .piece { p with final := c, product := product } } } }
            tm := { s.tm with waitCommit := .some (e.page * 256 + (1792 + product) % 256) } })

/-- R88, R89, R85, R97: the read of a regraded decision gives its bins, or bin 0 and none after an uncorrectable
word; the decision is written into its slot and committed as a stale commit, then held locks are taken in order
until one begins another commit in flight, each as a lock arrival, and a held switch point is taken. The value of
an access whose commit was abandoned is discarded. That each held lock is an event of its own, so that the buffers
they free join the free list in lock order, is the model's (notes/assumptions/52.md). -/
def Obligations.CommitCompletionTakesTheBinsRead : Prop :=
  (∀ s : State,
    takeHeldLocks [] s = s
    ∧ (∀ (lug : LugSeq) (rest : List LugSeq),
      (s.cu.inFlight ≠ .none →
        takeHeldLocks (lug :: rest) s = { s with cu := { s.cu with heldLocks := lug :: rest } })
      ∧ ∀ t : State, s.resetPin = false → s.cu.inFlight = .none →
        exec .lockArrival { s with handed := { s.handed with locks := lug :: s.handed.locks } } = .next t →
        takeHeldLocks (lug :: rest) s = takeHeldLocks rest t)
    ∧ (s.cu.heldSwitch = .none → takeHeldSwitch s = s)
    ∧ ∀ lug : LugSeq, s.cu.heldSwitch = .some lug → takeHeldSwitch s = { s with cu := { s.cu with
      heldSwitch := .none, source := .some lug, saws := (slotAt s lug).committed.bind fun c => c.saws } })
  ∧ ∀ (s : State) (a : Access), s.resetPin = false → s.tm.access = .some a → a.who = .commit →
    let read := endAccess (noteRead s .commit a.index)
    (a.wanted = false → exec .commitCompletion s = .next read)
    ∧ ∀ (fl : InFlight) (p : PieceData), a.wanted = true → s.cu.inFlight = .some fl →
      fl.decision.body = .piece p →
      let bin (b : Byte) : Option Nat := if b.toNat < 48 then .some b.toNat else .none
      let commits (chosen alternate : Option Nat) : State :=
        let p' : PieceData := { p with chosen := chosen, alternate := alternate }
        let d' : Decision := { fl.decision with body := .piece p' }
        takeHeldSwitch (takeHeldLocks s.cu.heldLocks (commitPiece
          (setSlot { read with cu := { s.cu with inFlight := .none, heldLocks := [] } } fl.lug
            { slotAt s fl.lug with decision := .some d' }) fl.lug d' p' true))
      (∀ w : Word, (checkAt s a.index = .clean w ∨ checkAt s a.index = .single w) →
        exec .commitCompletion s = .next (commits (bin (w.extractLsb' 8 8)) (bin (w.extractLsb' 0 8))))
      ∧ (checkAt s a.index = .double → exec .commitCompletion s = .next (commits (.some 0) .none))

/-- R90, R92, R93: every commitment writes its committed decision, queues its DECISION frame on D, laid out as
Table 11-4 gives it for its kind, and reports its commit-time counts; a PIECE commitment reserves the first open one
of its chosen bin, its alternate and bin 0, and takes quota. -/
def Obligations.PieceCommitmentsReserveAndTakeQuota : Prop :=
  (∀ (s : State) (lug : LugSeq) (c : Committed) (d : Option Decision) (fl : CommitFlags),
    let s1 := setSlot s lug { slotAt s lug with committed := .some c }
    let cause := (slotAt s lug).cause
    let marked := (slotAt s lug).partialFlag
    let flags (quick part : Bool) : Byte := BitVec.ofNat 8 ((if quick then 1 else 0) + (if part then 2 else 0)
      + (if fl.stale then 4 else 0) + (if fl.catchDiversion then 8 else 0) + if fl.overQuota then 16 else 0)
    let sends (grades value last : List Byte) : Prop :=
      writeCommit s lug c d fl = (enqueue s1 .D (.frame 0 (makeFrame 16 s.settings.ownAddress 31 lug
          ([byte (kindCode c.kind)] ++ pairBytes c.saws ++ [opt8 c.bin] ++ grades ++ opt16 c.product
            ++ value ++ last)))).report
        ((if fl.stale then [(.staleCommits, 1)] else []) ++ (if fl.catchDiversion then [(.catchDiversions, 1)] else [])
          ++ (if fl.overQuota then [(.overQuota, 1)] else [])
          ++ if c.kind = .piece ∧ ∃ x, d = .some x ∧ x.quick = true then [(.quickPieces, 1)] else [])
    (∀ (x : Decision) (p : PieceData), c.kind = .piece → d = .some x → x.body = .piece p →
      sends [byte (p.j - p.i), byte p.grade, byte p.final, byte x.wc] (be16n p.value)
        [0xFF, setCode x.set, flags x.quick x.partialFlag])
    ∧ (∀ x : Decision, c.kind = .cull → d = .some x → x.body = .cull →
      sends [0xFF, 0xFF, 0xFF, byte x.wc] [0, 0] [0xFF, setCode x.set, flags x.quick x.partialFlag])
    ∧ (∀ x : Decision, c.kind = .reject → d = .some x → x.body = .reject →
      sends [0xFF, 0xFF, 0xFF, 0xFF] [0, 0] [0xFF, 0xFF, flags false x.partialFlag])
    ∧ (c.kind = .bypass → d = .none → sends [0xFF, 0xFF, 0xFF, 0xFF] [0, 0] [0xFF, 0xFF, flags false marked])
    ∧ (c.kind = .recycle → d = .none →
      sends [0xFF, 0xFF, 0xFF, 0xFF] [0, 0] [causeCode cause, 0xFF, flags false marked]))
  ∧ ∀ (s : State) (lug : LugSeq) (d : Decision) (p : PieceData) (stale : Bool), d.body = .piece p →
    let opens (n : Nat) : Bool :=
      n == 0 || (!(binAt s.bos n).outOfService && decide ((binAt s.bos n).fill + (binAt s.bos n).reserved
        < (binAt s.bos n).capacity))
    let named := p.chosen.toList ++ p.alternate.toList
    let bin := (named.find? opens).getD 0
    let fl : CommitFlags :=
      { stale := stale, catchDiversion := !named.any opens, overQuota := quotaAt s.bos p.product == .some 0 }
    let c : Committed :=
      { kind := .piece, saws := .some (p.i, p.j), bin := .some bin, product := .some p.product }
    let s1 := storeEvent s fun b =>
      setBin b bin { binAt b bin with reserved := (binAt b bin).reserved + 1 }
    let s2 : State := { s1 with bos := { s1.bos with quota := match quotaAt s.bos p.product with
      | .some (n + 1) => sparseSet .none s.bos.quota p.product (.some n)
      | .some 0 | .none => s.bos.quota } }
    commitPiece s lug d p stale = writeCommit s2 lug c (.some d) fl

/-- R96, R97: a switch point sets the pattern source and the saws from its lug's committed decision, replacing a
held one; one whose lug's commit is in flight is held (notes/assumptions/32.md). -/
def Obligations.SwitchPointsSetTheSaws : Prop :=
  ∀ (s : State) (lug : LugSeq) (rest : List LugSeq), s.resetPin = false → s.handed.switches = lug :: rest →
    let s1 : State := { s with handed := { s.handed with switches := rest } }
    let flying := ∃ fl ∈ s.cu.inFlight, fl.lug = lug
    let sets (pair : Option (Nat × Nat)) : Prop := exec .sawSwitchPoint s = .next
      { s1 with cu := { s.cu with heldSwitch := .none, source := .some lug, saws := pair } }
    (flying → exec .sawSwitchPoint s = .next { s1 with cu := { s.cu with heldSwitch := .some lug } })
    ∧ (¬ flying → (slotAt s lug).committed = .none → sets .none)
    ∧ (¬ flying → ∀ c : Committed, (slotAt s lug).committed = .some c → sets c.saws)

/-- R99 to R101, R107: at its sort a LIVE slot is retired silently; a COMMITTED one is delivered to its bin, or
to bin 0 when that is out of service, reported in a SORT frame, counted, and retired. A release that stops at 0,
a fill that stops at 65535, the freeing of a buffer still held, and the field that keeps the cause written at lock,
the one R123 counts, are the model's (notes/assumptions/39.md, 40.md, 53.md). -/
def Obligations.SortDeliversAndRetires : Prop :=
  (∀ (s : State) (lug : LugSeq) (rest : List LugSeq), s.resetPin = false → s.handed.sorts = lug :: rest →
    let s1 : State := { s with handed := { s.handed with sorts := rest } }
    let sl := slotAt s lug
    let retired (t : State) : State :=
      { setSlot t lug (Slot.empty sl.seq) with
        sa := { t.sa with freeList := t.sa.freeList ++ sl.buffer.toList } }
    let unhold (b : BinStore) (n : Nat) : BinStore :=
      setBin b n { binAt b n with reserved := (binAt b n).reserved - 1 }
    let sends (t : State) (c : Committed) (used redirect : Byte) : State :=
      enqueue t .D (.frame 0 (makeFrame 17 s.settings.ownAddress 31 lug
        ([byte (kindCode c.kind), used, opt8 c.bin] ++ opt16 c.product ++ [redirect])))
    let piece (c : Committed) : List (TallyField × Nat) := match c.kind, c.product, c.saws with
      | .piece, .some p, .some ij => [(.pieces p, 1), (.feet p, 2 * (ij.2 - ij.1))]
      | _, _, _ => []
    (sl.committed = .none → exec .sortArrival s = .next (retired s1))
    ∧ ∀ c : Committed, sl.committed = .some c →
      (c.kind = .recycle → c.bin = .none → exec .sortArrival s = .next (retired ((sends s1 c 0xFF 0).report
        ((.outcome .recycle, 1) :: c.cause.toList.map fun x => (.cause x, 1)))))
      ∧ ∀ b : Nat, c.kind ≠ .recycle → c.bin = .some b →
        (b ≠ 0 → (binAt s.bos b).outOfService = true →
          exec .sortArrival s = .next (retired ((sends (storeEvent s1 fun st => addPiece (unhold st b) 0) c 0 1).report
            ((.outcome c.kind, 1) :: piece c ++ [(.bin 0, 1), (.redirects, 1)]))))
        ∧ ((b = 0 ∨ (binAt s.bos b).outOfService = false) →
          exec .sortArrival s = .next (retired
            ((sends (storeEvent s1 fun st => addPiece (unhold st b) b) c (byte b) 0).report
              ((.outcome c.kind, 1) :: piece c ++ [(.bin b, 1)])))))
  ∧ ∀ (b : BinStore) (n : Nat), addPiece b n =
      { setBin b n { binAt b n with fill := min 65535 ((binAt b n).fill + 1) } with
        counts := if n = 0 ∧ 65535 ≤ (binAt b n).fill then
          { b.counts with bin0Saturated := satInc b.counts.bin0Saturated } else b.counts }

/-! ### Sorter notices -/

/-- R105, R109 to R111: a notice sets the fill of its bin to 0, or its out-of-service flag; one too short, for a bin
above 47, for bin 0's service or with a bad direction is only counted. An event at the store raises a BIN alert
exactly when it leaves the full-bin set or the out-of-service set different. -/
def Obligations.SorterNoticesSetTheirBin : Prop :=
  (∀ (s : State) (f : BinStore → BinStore),
    let t : State := { s with bos := f s.bos }
    let full (b : BinStore) (n : Nat) : Prop := (binAt b n).outOfService = false
      ∧ (binAt b n).capacity ≤ (binAt b n).fill + (binAt b n).reserved
    let alike := ∀ n, 1 ≤ n → n ≤ 47 → (full t.bos n ↔ full s.bos n)
      ∧ (binAt t.bos n).outOfService = (binAt s.bos n).outOfService
    (alike → storeEvent s f = t) ∧ (¬ alike → storeEvent s f = raiseAlert t .bin))
  ∧ ∀ (s : State) (p : Port) (f : Frame) (rest : List (Port × Frame)), s.resetPin = false →
    s.lu.sorterQ = (p, f) :: rest →
    let s1 : State := { s with lu := { s.lu with sorterQ := rest } }
    let n := s.bos.counts
    let b := num8 f.body 0
    let dir := num8 f.body 1
    let counted (c : StoreCounts) : State := { s1 with bos := { s.bos with counts := c } }
    let serves (out : Bool) : State :=
      storeEvent s1 fun st => setBin st b { binAt st b with outOfService := out }
    (frameClass f = 20 →
      (f.body.length < 1 → exec .binEmptied s = .next (counted { n with shortNotice := satInc n.shortNotice }))
      ∧ (1 ≤ f.body.length → 47 < b → exec .binEmptied s = .next (counted { n with badBin := satInc n.badBin }))
      ∧ (1 ≤ f.body.length → b ≤ 47 →
        exec .binEmptied s = .next (storeEvent s1 fun st => setBin st b { binAt st b with fill := 0 })))
    ∧ (frameClass f = 21 →
      (f.body.length < 2 → exec .binService s = .next (counted { n with shortNotice := satInc n.shortNotice }))
      ∧ (2 ≤ f.body.length → 47 < b → exec .binService s = .next (counted { n with badBin := satInc n.badBin }))
      ∧ (2 ≤ f.body.length → b = 0 →
        exec .binService s = .next (counted { n with catchBinNotice := satInc n.catchBinNotice }))
      ∧ (2 ≤ f.body.length → 0 < b → b ≤ 47 →
        (dir = 0 → exec .binService s = .next (serves false)) ∧ (dir = 1 → exec .binService s = .next (serves true))
        ∧ (1 < dir → exec .binService s = .next (counted { n with badDirection := satInc n.badDirection }))))

/-! ### Links -/

/-- R156, R158 to R162, R165, R166: a frame whose check fails adds 8 to the error count; one that agrees takes 1
off, is discarded in FAILED, and otherwise is judged by the lowest matching entry of the acceptance table, whose
hits are counted, or is forwarded; a frame consumed joins its queue, or is lost from a full one and counted. That a
DOWN port's frame is judged alike, and that one in reception gives way to it uncounted, are the model's
(notes/assumptions/34.md, 55.md). -/
def Obligations.CompleteFramesAreCheckedAndFiltered : Prop :=
  (∀ (s : State) (p : Port) (f : Frame),
    let l := s.lu
    let n := l.overflow
    (consume s .scan p f = if l.scanQ.length < 32 then { s with lu := { l with scanQ := l.scanQ ++ [(p, f)] } }
      else { s with
        lu := { l with overflow := { n with scan := satInc n.scan } }
        handed := { s.handed with scanOverflows := s.handed.scanOverflows + 1 } })
    ∧ (consume s .mark p f = if l.markQ.length < 8 then { s with lu := { l with markQ := l.markQ ++ [(p, f)] } }
      else { s with
        lu := { l with overflow := { n with mark := satInc n.mark } }
        handed := { s.handed with markOverflows := s.handed.markOverflows ++ [(p, f)] } })
    ∧ (consume s .mgmt p f = if l.mgmtQ.length < 4 then { s with lu := { l with mgmtQ := l.mgmtQ ++ [(p, f)] } }
      else { s with
        lu := { l with overflow := { n with mgmt := satInc n.mgmt } }
        handed := { s.handed with mgmtOverflows := s.handed.mgmtOverflows ++ [(p, f)] } })
    ∧ (consume s .sorter p f =
      if l.sorterQ.length < 8 then { s with lu := { l with sorterQ := l.sorterQ ++ [(p, f)] } }
      else raiseAlert { s with lu := { l with
        overflow := { n with sorter := satInc n.sorter }
        sorterDropped := satInc l.sorterDropped } } .port))
  ∧ ∀ (s : State) (p : Port) (f : Frame), s.resetPin = false → f.body.length ≤ 240 →
    let s0 := updPort s p fun q => { q with rx := .none }
    let q := portOf s.lu p
    let good := f.check = crc ([f.b0, f.b1, f.b2] ++ be16 f.tag ++ [byte f.body.length] ++ f.body)
    let s1 := setErrCount (updPort s0 p fun q => { q with good := satInc q.good }) p (q.errCount - 1)
    let hit (k : Fin 16) : Prop :=
      let e := s.lu.filters[k]
      e.enabled = true ∧ f.b0.extractLsb' 0 6 &&& e.classMask = e.classMatch &&& e.classMask
        ∧ f.b1.extractLsb' 0 5 &&& e.originMask = e.originMatch &&& e.originMask
        ∧ (e.dest = .own → (f.b2.extractLsb' 0 5).toNat = s.settings.ownAddress)
        ∧ (e.port = .u → p = .U) ∧ (e.port = .d → p = .D)
    let forwards (t : State) : State := enqueue t p.other (.frame 3 f)
    (¬ good → exec (.frameArrival p f) s = .next
      (setErrCount (updPort s0 p fun q => { q with bad := satInc q.bad }) p (min 255 (q.errCount + 8))))
    ∧ (good → (portOf s1.lu p).errState = .failed → exec (.frameArrival p f) s = .next
      (updPort s1 p fun q => { q with failedDiscards := satInc q.failedDiscards }))
    ∧ (good → (portOf s1.lu p).errState ≠ .failed →
      ((∀ k, ¬ hit k) → exec (.frameArrival p f) s = .next (forwards s1))
      ∧ ∀ k : Fin 16, hit k → (∀ j, j < k → ¬ hit j) →
        let e := s.lu.filters[k]
        let s2 : State := { s1 with lu := { s1.lu with
          filters := s1.lu.filters.set k { e with hits := satInc e.hits } } }
        exec (.frameArrival p f) s = .next (match e.action with
          | .consume => consume s2 e.queue p f
          | .consumeForward => forwards (consume s2 e.queue p f)
          | .forward => forwards s2
          | .drop => s2))

/-- R155, R158, R159, R165: a change of a port's receive error count moves its error state by Table 9-2, with a
PORT alert when that changes; a malformed frame is counted with 8 on the count; a frame of a class its queue's
handler does not take leaves the queue when taken, counted as misrouted, and is otherwise ignored. That a malformed
frame is counted also where the port receives none or is DOWN is the model's (notes/assumptions/55.md). -/
def Obligations.BadFramesMoveTheErrorState : Prop :=
  (∀ (s : State) (p : Port) (n : Nat),
    let before := (portOf s.lu p).errState
    let after : ErrorState :=
      if before = .failed then (if 64 ≤ n then .failed else .clean)
      else if 192 ≤ n then .failed
      else if 96 ≤ n then .noisy
      else if before = .noisy ∧ 64 ≤ n then .noisy
      else .clean
    let t := updPort s p fun q => { q with errCount := n, errState := after }
    setErrCount s p n = (if after = before then t else raiseAlert t .port))
  ∧ (∀ (s : State) (p : Port) (how : MalformedBy), s.resetPin = false →
    exec (.malformedFrame p how) s = .next (setErrCount (updPort s p fun q => { q with
      rx := if how = .startMark then .some [] else .none
      malformed := satInc q.malformed }) p (min 255 ((portOf s.lu p).errCount + 8))))
  ∧ ∀ (s : State) (p : Port) (f : Frame) (rest : List (Port × Frame)), s.resetPin = false →
    let n := s.lu.misrouted
    let c := frameClass f
    (s.lu.scanQ = (p, f) :: rest → c ∉ [1, 2, 3, 4] → exec (.misroutedFrame .scan) s = .next { s with
      lu := { s.lu with scanQ := rest, misrouted := { n with scan := satInc n.scan } }
      sa := { s.sa with lossRun := s.sa.lossRun - 1 } })
    ∧ (s.lu.markQ = (p, f) :: rest → c ≠ 8 → exec (.misroutedFrame .mark) s = .next { s with
      lu := { s.lu with markQ := rest, misrouted := { n with mark := satInc n.mark } } })
    ∧ (s.lu.mgmtQ = (p, f) :: rest → c ≠ 32 → s.mg.exec = .none → s.ct.starting = false →
      exec (.misroutedFrame .mgmt) s = .next { s with
        lu := { s.lu with mgmtQ := rest, misrouted := { n with mgmt := satInc n.mgmt } } })
    ∧ (s.lu.sorterQ = (p, f) :: rest → c ∉ [20, 21] → exec (.misroutedFrame .sorter) s = .next { s with
      lu := { s.lu with sorterQ := rest, misrouted := { n with sorter := satInc n.sorter } } })

/-- R155, R157: a symbol on a DOWN port makes it UP with its timer running and raises a PORT alert; any symbol
restarts the timer of an UP port, a start mark begins a frame and ends one in progress as malformed, and eight
bytes and the body its length byte announces complete one; expiry makes the port DOWN with a PORT alert. That the
alert is raised before a waiting transmission begins, and that an idle symbol leaves a frame in progress as it
stands, are the model's (notes/assumptions/12.md, 37.md). -/
def Obligations.SymbolsDriveTheLinkAndTheReceiver : Prop :=
  ∀ (s : State) (p : Port) (sym : Symbol), s.resetPin = false →
    let q := portOf s.lu p
    let expired := raiseAlert (updPort s p fun q => { q with link := .down, timer := false, rx := .none }) .port
    (q.link = .down →
      exec (.linkUp p sym) s = exec (.symbolReceived p sym) s
      ∧ exec (.linkUp p sym) s = exec (.symbolReceived p sym)
          (startTx (raiseAlert (updPort s p fun q => { q with link := .up, timer := true }) .port) p)
      ∧ ∃ t, exec (.linkUp p sym) s = .next t ∧ (portOf t.lu p).link = .up ∧ (portOf t.lu p).timer = true)
    ∧ (q.link = .up →
      let timed := updPort s p fun q => { q with timer := true }
      let holds (rx : Option (List Byte)) : State := updPort timed p fun q => { q with rx := rx }
      (q.rx = .none → exec (.linkAliveExpiry p) s = .next expired)
      ∧ (q.rx ≠ .none → exec (.linkAliveExpiry p) s = exec (.malformedFrame p .endMark) expired)
      ∧ (sym = .idle → exec (.symbolReceived p sym) s = .next timed)
      ∧ (sym = .startMark → q.rx = .none → exec (.symbolReceived p sym) s = .next (holds (.some [])))
      ∧ (sym = .startMark → q.rx ≠ .none →
        exec (.symbolReceived p sym) s = exec (.malformedFrame p .startMark) timed)
      ∧ (sym = .endMark → q.rx = .none → exec (.symbolReceived p sym) s = .next timed)
      ∧ (sym = .endMark → q.rx ≠ .none → exec (.symbolReceived p sym) s = exec (.malformedFrame p .endMark) timed)
      ∧ ∀ b : Byte, sym = .data b →
        (q.rx = .none → exec (.symbolReceived p sym) s = .next timed)
        ∧ ∀ bytes : List Byte, q.rx = .some bytes →
          (bytes.length < 5 → exec (.symbolReceived p sym) s = .next (holds (.some (bytes ++ [b]))))
          ∧ (bytes.length = 5 → 240 < b.toNat →
            exec (.symbolReceived p sym) s = exec (.malformedFrame p .overLength) timed)
          ∧ (bytes.length = 5 → b.toNat ≤ 240 →
            exec (.symbolReceived p sym) s = .next (holds (.some (bytes ++ [b]))))
          ∧ (6 ≤ bytes.length → bytes.length + 1 < 8 + (bytes.getD 5 0).toNat →
            exec (.symbolReceived p sym) s = .next (holds (.some (bytes ++ [b]))))
          ∧ ∀ (f : Frame), f.body.length ≤ 240 →
            bytes ++ [b] = [f.b0, f.b1, f.b2] ++ be16 f.tag ++ [byte f.body.length] ++ f.body ++ be16 f.check →
            exec (.symbolReceived p sym) s = exec (.frameArrival p f) timed)

/-- R167 to R169, R171, R172: a queued frame takes a free place; in a full queue it displaces the newest frame of
the largest priority number if its own is smaller, else it is dropped, and the frame lost is counted under its
priority. When the port is UP and its transmitter idle, at the queuing or at a transmission's end, the oldest frame
of the smallest priority number leaves the queue and is sent; an ALERT's contents are built then as Table 11-5 gives
them, under the own address then in force and a tag that no rule gives (notes/assumptions/49.md, 16.md). -/
def Obligations.TransmissionsFollowPriorityAndAge : Prop :=
  let bins (s : State) (x : BinRecord → Bool) : List Byte :=
    binSetBytes ((List.range 48).filter fun n => n != 0 && x (binAt s.bos n))
  let line (q : PortState) : List Byte := [byte (linkCode q.link), byte (errCode q.errState), byte q.errCount]
  let contents (s : State) (k : AlertKind) : List Byte := match k with
    | .bin => bins s (fun r => !r.outOfService && decide (r.capacity ≤ r.fill + r.reserved))
        ++ bins s fun r => r.outOfService
    | .port => line s.lu.u ++ line s.lu.d ++ be16 s.lu.sorterDropped
    | .chain => be16 s.ct.spurious ++ be16 s.ct.slip ++ be16 s.ct.missing ++ be16 s.ct.seq
        ++ [byte (modeCode s.ct.mode)]
    | .ecc => (match s.tm.record with
          | .none => [0, 0xFF, 0xFF, 0xFF]
          | .some r => [1, byte r.page, byte r.word, byte (requesterCode r.who)])
        ++ be16 s.tm.corrected ++ be16 s.tm.uncorrected
    | .scanLoss => be16 s.sa.counts.scanLoss
        ++ [byte (s.ring.toList.countP fun sl => sl.scan == .some .opened && sl.loss)] ++ be16 s.ct.seq
  let starts (left : State) (p : Port) (x : TxItem) : State :=
    let sends (f : Frame) : State := updPort left p fun q => { q with sending := .some f }
    match x with
    | .frame _ f => sends f
    | .alert k n => { sends (makeFrame 40 left.settings.ownAddress 31 (Config.alertTag left.freeCount)
        ([byte (alertCode k), byte n] ++ contents left k)) with freeCount := left.freeCount + 1 }
  let nextSent (tx before : List TxItem) (x : TxItem) (after : List TxItem) : Prop :=
    tx = before ++ x :: after ∧ (∀ y ∈ before, x.prio < y.prio) ∧ ∀ y ∈ after, x.prio ≤ y.prio
  (∀ l : List Nat, (binSetBytes l).length = 6
    ∧ ∀ b, b < 48 → (((binSetBytes l).getD (5 - b / 8) 0).getLsbD (b % 8) = true ↔ b ∈ l))
  ∧ (∀ (s : State) (p : Port) (x : TxItem),
    let q := joinTx (portOf s.lu p) x
    ((q.link = .down ∨ q.sending ≠ .none) → enqueue s p x = updPort s p fun _ => q)
    ∧ ∀ (before after : List TxItem) (y : TxItem), q.link = .up → q.sending = .none →
      nextSent q.tx before y after →
      enqueue s p x = starts (updPort s p fun _ => { q with tx := before ++ after }) p y)
  ∧ (∀ (q : PortState) (x : TxItem),
    (q.tx.length < 8 → joinTx q x = { q with tx := q.tx ++ [x] })
    ∧ (8 ≤ q.tx.length → (∃ y ∈ q.tx, x.prio < y.prio) → ∃ (before after : List TxItem) (y : TxItem),
      q.tx = before ++ y :: after ∧ (∀ z ∈ q.tx, z.prio ≤ y.prio) ∧ (∀ z ∈ after, z.prio < y.prio)
        ∧ joinTx q x = { q with
          tx := before ++ after ++ [x]
          drops := q.drops.setIfInBounds y.prio (satInc (q.drops.toList.getD y.prio 0)) })
    ∧ (8 ≤ q.tx.length → (∀ y ∈ q.tx, y.prio ≤ x.prio) →
      joinTx q x = { q with drops := q.drops.setIfInBounds x.prio (satInc (q.drops.toList.getD x.prio 0)) }))
  ∧ ∀ (s : State) (p : Port), s.resetPin = false →
    let q := portOf s.lu p
    (q.sending ≠ .none → q.link = .up → ∀ (before after : List TxItem) (x : TxItem),
      nextSent q.tx before x after → exec (.transmissionComplete p) s = .next
        (starts (updPort s p fun q => { q with sending := .none, tx := before ++ after }) p x))
    ∧ (q.sending ≠ .none → (q.link = .down ∨ q.tx = []) →
      exec (.transmissionComplete p) s = .next (updPort s p fun q => { q with sending := .none }))

/-- R170: an occurrence while an ALERT of its kind waits on D adds 1 to its count, up to 255, and to the kind's
merge counter; otherwise a new ALERT is queued on D. -/
def Obligations.AlertsMergeWhileOneWaits : Prop :=
  ∀ (s : State) (k : AlertKind), AlertsSingle s →
    ((∀ n, .alert k n ∉ s.lu.d.tx) → raiseAlert s k = enqueue s .D (.alert k 1))
    ∧ ∀ (before after : List TxItem) (n : Nat), s.lu.d.tx = before ++ .alert k n :: after →
      raiseAlert s k = { s with lu := { s.lu with
        d := { s.lu.d with tx := before ++ .alert k (min 255 (n + 1)) :: after }
        merged := match k with
          | .bin => { s.lu.merged with bin := satInc s.lu.merged.bin }
          | .port => { s.lu.merged with port := satInc s.lu.merged.port }
          | .chain => { s.lu.merged with chain := satInc s.lu.merged.chain }
          | .ecc => { s.lu.merged with ecc := satInc s.lu.merged.ecc }
          | .scanLoss => { s.lu.merged with scanLoss := satInc s.lu.merged.scanLoss } } }

/-! ### Table memory -/

/-- R145: TABLE-READ, TABLE-WRITE and TABLE-WRITE-BYTE are refused by the first check of Table 8-3 that fails;
one that passes becomes the request in execution and asks for its first access. -/
def Obligations.TableRequestsAreCheckedThenBegin : Prop :=
  ∀ (s : State) (p : Port) (f : Frame) (rest : List (Port × Frame)),
    let s1 := mgmtTaken s rest
    let args := f.body.drop 3
    let set := num8 args 0
    let page := num8 args 1
    let first := num8 args 2
    let count := num8 args 3
    let sid : SetId := if set = 0 then .s0 else .s1
    let bad (limit : Nat) := 1 < set ∨ 9 < page ∨ count < 1 ∨ limit < count ∨ 256 < first + count
    let protects (e : MapEntry) (i : Instr) : Prop :=
      (e.readOnly = true → exec i s = .next (reply s1 p f .protectedEntry []))
      ∧ (e.readOnly = false → pageInUse s e.page = true → exec i s = .next (reply s1 p f .inUse []))
    let begins (e : MapEntry) (w : Work) (k : AccessKind) : State :=
      grant { s1 with
        mg := { s.mg with exec := .some { port := p, frame := f, work := w } }
        tm := { s.tm with waitMgmt := .some (e.page * 256 + first, k) } }
    let start (e : MapEntry) : Nat := e.page * 256 + first
    (Requested s p f rest 1 4 →
      (bad 117 → exec .tableRead s = .next (reply s1 p f .badArg []))
      ∧ (¬ bad 117 → entryOf s.tm sid page = .none → exec .tableRead s = .next (reply s1 p f .unmapped []))
      ∧ ∀ e, ¬ bad 117 → entryOf s.tm sid page = .some e →
        exec .tableRead s = .next (begins e (.read (start e) count []) .read))
    ∧ (Requested s p f rest 2 4 →
      let bad' := bad 116 ∨ args.length < 4 + 2 * count
      let values := (List.range count).map fun k => word16 args (4 + 2 * k)
      (bad' → exec .tableWrite s = .next (reply s1 p f .badArg []))
      ∧ (¬ bad' → entryOf s.tm sid page = .none → exec .tableWrite s = .next (reply s1 p f .unmapped []))
      ∧ ∀ e, ¬ bad' → entryOf s.tm sid page = .some e → protects e .tableWrite
        ∧ (e.readOnly = false → pageInUse s e.page = false → exec .tableWrite s = .next
          (begins e (.write (start e) values 0) (.write (word16 args 4)))))
    ∧ (Requested s p f rest 3 5 →
      let bad' := bad 120 ∨ args.length < 5 + count ∨ 1 < num8 args 4
      let half : Half := if num8 args 4 = 0 then .high else .low
      (bad' → exec .tableWriteByte s = .next (reply s1 p f .badArg []))
      ∧ (¬ bad' → entryOf s.tm sid page = .none → exec .tableWriteByte s = .next (reply s1 p f .unmapped []))
      ∧ ∀ e, ¬ bad' → entryOf s.tm sid page = .some e → protects e .tableWriteByte
        ∧ (e.readOnly = false → pageInUse s e.page = false → exec .tableWriteByte s = .next
          (begins e (.writeByte (start e) half ((args.drop 5).take count) 0) (.writeByte half (byteAt args 5)))))

/-- R146 to R148: an access of a table request reads its word corrected, stores its value with fresh check bits,
or merges its byte; the next word is asked for, and the last, or an uncorrectable word, ends the request with its
reply. That the ECC reply of a byte write carries its position alone is the model's (notes/assumptions/28.md). -/
def Obligations.TableAccessesReadWriteAndMerge : Prop :=
  ∀ (s : State) (a : Access) (e : InExec), MgmtAccessing s a e →
    let read := endAccess (noteRead s .management a.index)
    let stores (s : State) (v : Word) : State := endAccess { s with tm := { s.tm with
      words := sparseSet blankWord s.tm.words a.index { written := v, changed := 0 } } }
    let ends (t : State) (r : Result) (data : List Byte) : State :=
      reply { t with mg := { s.mg with exec := .none } } e.port e.frame r data
    let goesOn (t : State) (w : Work) (i : Nat) (k : AccessKind) : State := grant { t with
      mg := { s.mg with exec := .some { e with work := w } }
      tm := { t.tm with waitMgmt := .some (i, k) } }
    let returns (v : Word) := checkAt s a.index = .clean v ∨ checkAt s a.index = .single v
    (∀ (start count : Nat) (got : List Word), e.work = .read start count got →
      (checkAt s a.index = .double → exec .tableReadAccess s = .next
        (ends read .ecc (byte got.length :: got.flatMap be16)))
      ∧ ∀ v, returns v →
        (got.length + 1 < count → exec .tableReadAccess s = .next
          (goesOn read (.read start count (got ++ [v])) (start + (got.length + 1)) .read))
        ∧ (count ≤ got.length + 1 → exec .tableReadAccess s = .next
          (ends read .done ((got ++ [v]).flatMap be16))))
    ∧ (∀ (start : Nat) (values : List Word) (pos : Nat) (v : Word), e.work = .write start values pos →
      values[pos]? = .some v →
      (∀ v', values[pos + 1]? = .some v' → exec .tableWriteAccess s = .next
        (goesOn (stores s v) (.write start values (pos + 1)) (start + (pos + 1)) (.write v')))
      ∧ (values.length = pos + 1 → exec .tableWriteAccess s = .next (ends (stores s v) .done [])))
    ∧ ∀ (start : Nat) (half : Half) (bytes : List Byte) (pos : Nat) (b : Byte),
      e.work = .writeByte start half bytes pos → bytes[pos]? = .some b →
      (checkAt s a.index = .double → exec .byteWriteAccess s = .next (ends read .ecc [byte pos]))
      ∧ ∀ v, returns v →
        let merged : Word := match half with
          | .high => b ++ v.extractLsb' 0 8
          | .low => v.extractLsb' 8 8 ++ b
        let stored := stores (noteRead s .management a.index) merged
        (∀ b', bytes[pos + 1]? = .some b' → exec .byteWriteAccess s = .next
          (goesOn stored (.writeByte start half bytes (pos + 1)) (start + (pos + 1)) (.writeByte half b')))
        ∧ (bytes.length = pos + 1 → exec .byteWriteAccess s = .next (ends stored .done []))

/-- R149 to R151: a SET-SELECT of a wholly mapped set reads the 256 words of L0 and words 240 to 246 of L1 in
order through it; the last read makes the set active and replaces the head cache whole, each head and threshold
read from its words as Table 11-8 gives them, and an uncorrectable word leaves both as they were. That the zone
bytes are read whole is the model's (notes/assumptions/38.md). -/
def Obligations.SetSelectionCopiesThenActivates : Prop :=
  (∀ words : List Word, words.length = 263 →
    let c := cacheOfWords words
    let w (k : Nat) : Word := words.getD k 0
    (∀ h : Fin 8,
      let e := c.heads[h]
      e.participating = (w (32 * h)).getLsbD 0 ∧ e.lead = (w (32 * h)).getLsbD 1
      ∧ e.mirrored = (w (32 * h)).getLsbD 2
      ∧ e.firstZone = ((w (32 * h + 1)).extractLsb' 8 8).toNat
      ∧ e.lastZone = ((w (32 * h + 1)).extractLsb' 0 8).toNat
      ∧ ∀ raw : Fin 64,
        e.classMap[raw] = (w (32 * h + 2 + raw.val / 4)).extractLsb' (12 - 4 * (raw.val % 4)) 4)
    ∧ c.thresholds = (List.range 7).map fun k => (w (256 + k)).toNat)
  ∧
  (∀ (s : State) (p : Port) (f : Frame) (rest : List (Port × Frame)), Requested s p f rest 5 1 →
    let s1 := mgmtTaken s rest
    let set := num8 f.body 3
    let sid : SetId := if set = 0 then .s0 else .s1
    (1 < set → exec .setSelect s = .next (reply s1 p f .badArg []))
    ∧ (set ≤ 1 → (∃ k : Fin 10, (mapOf s.tm sid)[k] = .none) →
      exec .setSelect s = .next (reply s1 p f .unmapped []))
    ∧ (set ≤ 1 → (∀ k : Fin 10, (mapOf s.tm sid)[k] ≠ .none) → ∀ e, entryOf s.tm sid 0 = .some e →
      exec .setSelect s = .next (grant { s1 with
        mg := { s.mg with exec := .some { port := p, frame := f, work := .select sid [] } }
        tm := { s.tm with waitMgmt := .some (e.page * 256, .read) } })))
  ∧ ∀ (s : State) (a : Access) (e : InExec) (sid : SetId) (staging : List Word), MgmtAccessing s a e →
    e.work = .select sid staging → staging.length < 263 →
    let read := endAccess (noteRead s .management a.index)
    let place (n : Nat) : Nat × Nat := if n < 256 then (0, n) else (1, n - 16)
    let here := place staging.length
    let next := place (staging.length + 1)
    let idle : State := { read with mg := { s.mg with exec := .none } }
    (checkAt s a.index = .double → exec .copyAccess s = .next
      (reply idle e.port e.frame .ecc [byte here.1, byte here.2]))
    ∧ ∀ v, (checkAt s a.index = .clean v ∨ checkAt s a.index = .single v) →
      (staging.length + 1 < 263 → ∀ m, entryOf s.tm sid next.1 = .some m →
        exec .copyAccess s = .next (grant { read with
          mg := { s.mg with exec := .some { e with work := .select sid (staging ++ [v]) } }
          tm := { read.tm with waitMgmt := .some (m.page * 256 + next.2, .read) } }))
      ∧ (staging.length + 1 = 263 → exec .copyAccess s = .next
        (reply { idle with
          tm := { read.tm with active := .some sid }
          sa := { s.sa with cache := cacheOfWords (staging ++ [v]) } } e.port e.frame .done []))

/-- R135 to R138, R140, R141: a read corrects one changed bit and finds two uncorrectable, which it logs and
alerts; the highest rank waiting is granted; the scrub timer makes a visit due, and a visit writes a corrected
word back and moves on. -/
def Obligations.ReadsAreCheckedAndTheScrubberRepairs : Prop :=
  (∀ (s : State) (who : Requester) (i : Nat),
    let w := sparseGet blankWord s.tm.words i
    (popCount w.changed = 0 → checkAt s i = .clean w.written)
    ∧ (popCount w.changed = 1 → checkAt s i = .single w.written)
    ∧ (popCount w.changed = 2 → checkAt s i = .double)
    ∧ (∀ v, checkAt s i = .clean v → noteRead s who i = s)
    ∧ (∀ v, checkAt s i = .single v →
      noteRead s who i = { s with tm := { s.tm with corrected := satInc s.tm.corrected } })
    ∧ (checkAt s i = .double → noteRead s who i = raiseAlert { s with tm := { s.tm with
      uncorrected := satInc s.tm.uncorrected
      record := if s.tm.record.isSome then s.tm.record
        else .some { page := i / 256, word := i % 256, who := who } } } .ecc))
  ∧ (∀ s : State, s.resetPin = false →
    let t := s.tm
    let gives (w : Requester) (i : Nat) (k : AccessKind) : Option Access :=
      .some { who := w, index := i, kind := k, wanted := true }
    (∀ n, t.scrubTimer = .some n → exec .scrubIntervalExpiry s = .next (grant { s with tm := { t with
      visitDue := true, scrubTimer := .some s.settings.scrubInterval } }))
    ∧ (∀ a, t.access = .some a → a.kind = .scrub →
      let read := noteRead s .scrubber a.index
      let moved (words : Sparse StoredWord) : State := endAccess { read with tm := { read.tm with
        words := words, scrubPos := t.scrubPos + 1 } }
      ((∃ v, checkAt s a.index = .single v ∧ exec .scrubVisit s = .next
          (moved (sparseSet blankWord t.words a.index { written := v, changed := 0 })))
        ∨ (∀ v, checkAt s a.index ≠ .single v) ∧ exec .scrubVisit s = .next (moved t.words)))
    ∧ endAccess s = grant { s with tm := { t with access := .none } }
    ∧ (t.access ≠ .none → grant s = s)
    ∧ (t.access = .none → s.ct.starting = false →
      (t.visitDue = true → grant s = { s with tm := { t with
        visitDue := false, access := gives .scrubber t.scrubPos.toNat .scrub } })
      ∧ (t.visitDue = false → ∀ i, t.waitCommit = .some i → grant s = { s with tm := { t with
        waitCommit := .none, access := gives .commit i .read } })
      ∧ (t.visitDue = false → t.waitCommit = .none → ∀ i, t.waitOpt = .some i → grant s = { s with tm := { t with
        waitOpt := .none, access := gives .optimizer i .read } })
      ∧ (t.visitDue = false → t.waitCommit = .none → t.waitOpt = .none → ∀ i k, t.waitMgmt = .some (i, k) →
        grant s = { s with tm := { t with waitMgmt := .none, access := gives .management i k } })))

/-! ### Management requests -/

/-- R14, R15, R28, R108: a MODE request acts by Table 1-5; entering STOP empties every slot, releases the
reservations and map buffers, abandons the job, the queue and the commit in flight, raises the saws and counts a
clearing. -/
def Obligations.ModeRequestsActByTheTable : Prop :=
  ∀ (s : State) (p : Port) (f : Frame) (rest : List (Port × Frame)), Requested s p f rest 6 1 →
    let s1 := mgmtTaken s rest
    let code := num8 f.body 3
    let inMode (m : LineMode) : State := { s1 with ct := { s.ct with mode := m } }
    let disowned (who : Requester) (a : Option Access) : Option Access :=
      a.map fun a => if a.who = who then { a with wanted := false } else a
    (2 < code → exec .mode s = .next (reply s1 p f .badArg []))
    ∧ (code = modeCode s.ct.mode → exec .mode s = .next (reply s1 p f .done []))
    ∧ (code = 1 → s.ct.mode ≠ .bypass → exec .mode s = .next (reply (inMode .bypass) p f .done []))
    ∧ (code = 2 → s.ct.mode ≠ .run →
      (s.tm.active ≠ .none → exec .mode s = .next (reply (inMode .run) p f .done []))
      ∧ (s.tm.active = .none → exec .mode s = .next (reply s1 p f .noSet [])))
    ∧ (code = 0 → s.ct.mode ≠ .stop → ∃ (r : Vector Slot 64) (b : BinStore) (freed : List Nat) (t : State),
      (∀ k : Fin 64, r[k] = Slot.empty s.ring[k].seq)
      ∧ (∀ n : Fin 48, b.bins[n] = { s.bos.bins[n] with
          reserved := s.bos.bins[n].reserved - reservationsOf s n })
      ∧ b.quota = s.bos.quota ∧ b.counts = s.bos.counts
      ∧ freed.Pairwise (· < ·) ∧ (∀ n : Fin 24, n.val ∈ freed ↔ ∃ k : Fin 64, s.ring[k].buffer = .some n.val)
      ∧ t = { storeEvent s1 (fun _ => b) with
          ct := { s.ct with mode := .stop }
          ring := r
          sa := { s.sa with freeList := s.sa.freeList ++ freed }
          opt := { s.opt with
            queue := []
            job := .none
            counts := if s.opt.job.isSome then
                { s.opt.counts with abandoned := satInc s.opt.counts.abandoned } else s.opt.counts }
          cu := CommitUnit.atReset
          tm := { s.tm with
            waitCommit := .none
            waitOpt := if s.opt.job.isSome then .none else s.tm.waitOpt
            access := disowned .commit (if s.opt.job.isSome then disowned .optimizer s.tm.access else s.tm.access) }
          tu := { s.tu with current := s.tu.current.add .clearings 1 } }
      ∧ exec .mode s = .next (reply t p f .done []))

/-- R18, R19: a GEOMETRY-WRITE naming a setting other than own address and scrub interval is refused WRONG-MODE
outside STOP; one whose resulting configuration breaks R19 is refused BAD-ARG; any other is applied whole: each
setting its mask bit names takes its argument of Table 11-6, and every other keeps its value. One that names no
setting changes nothing. -/
def Obligations.GeometryWritesApplyWholeOrNotAtAll : Prop :=
  ∀ (s : State) (p : Port) (f : Frame) (rest : List (Port × Frame)), Requested s p f rest 7 20 →
    SettingsSound s →
    let s1 := mgmtTaken s rest
    let args := f.body.drop 3
    let names (k : Nat) : Bool := (word16 args 0).getLsbD k
    let old := s.settings
    let pair : Option (Nat × Nat) :=
      if num8 args 14 = 255 ∧ num8 args 15 = 255 then .none else .some (num8 args 14, num8 args 15)
    let g : Settings := {
      countsPerStep := if names 0 then num16 args 2 else old.countsPerStep
      tol := if names 1 then num16 args 4 else old.tol
      lead := if names 2 then num16 args 6 else old.lead
      dScanwin := if names 3 then num8 args 8 else old.dScanwin
      dLock := if names 4 then num8 args 9 else old.dLock
      dTrim := if names 5 then num8 args 10 else old.dTrim
      dSort := if names 6 then num8 args 11 else old.dSort
      policy := if names 7 then (if num8 args 12 = 0 then .optimize else .recycle) else old.policy
      quick := if names 8 then num8 args 13 else old.quick
      bypassPair := if names 9 then pair else old.bypassPair
      bypassBin := if names 10 then num8 args 16 else old.bypassBin
      ownAddress := if names 11 then num8 args 17 else old.ownAddress
      scrubInterval := if names 12 then num16 args 18 else old.scrubInterval }
    let stopOnly := ∃ k, k < 11 ∧ names k = true
    let any := ∃ k, k < 13 ∧ names k = true
    let valid := 16 ≤ g.countsPerStep ∧ g.countsPerStep ≤ 4096 ∧ 1 ≤ g.tol ∧ g.tol ≤ g.countsPerStep / 4
      ∧ g.lead < g.countsPerStep
      ∧ g.dScanwin < g.dLock ∧ g.dLock < g.dTrim ∧ g.dTrim < g.dSort ∧ g.dSort ≤ 60
      ∧ g.dScanwin ≤ 3 ∧ 2 ≤ g.dLock ∧ (names 7 = true → num8 args 12 ≤ 1)
      ∧ 1 ≤ g.quick ∧ g.quick ≤ 16 ∧ (∀ q ∈ g.bypassPair, q.1 < q.2 ∧ q.2 ≤ 10)
      ∧ g.bypassBin ≤ 47 ∧ g.ownAddress ≤ 30 ∧ 1 ≤ g.scrubInterval
    (stopOnly → s.ct.mode ≠ .stop → exec .geometryWrite s = .next (reply s1 p f .wrongMode []))
    ∧ (¬ (stopOnly ∧ s.ct.mode ≠ .stop) →
      (¬ any → exec .geometryWrite s = .next (reply s1 p f .done []))
      ∧ (any → ¬ valid → exec .geometryWrite s = .next (reply s1 p f .badArg []))
      ∧ (any → valid → exec .geometryWrite s = .next (reply { s1 with settings := g } p f .done [])))

/-- R112, R115, R144, R181: MAP-WRITE, FILTER-WRITE, BIN-WRITE and QUOTA-SET refuse arguments out of range, and
a map entry of a set active or latched; otherwise each changes its one entry, a capacity clamped at the bin's
load, and reports it (in the layouts of notes/assumptions/23.md to 26.md). -/
def Obligations.EntryWritesChangeOneEntry : Prop :=
  let mapBytes (e : Option MapEntry) : List Byte := match e with
    | .none => [0, 0xFF, 0xFF]
    | .some m => [1, byte m.page, if m.readOnly then 1 else 0]
  let filterFields (e : Filter) : List Byte :=
    [if e.enabled then 1 else 0, e.classMatch.setWidth 8, e.classMask.setWidth 8, e.originMatch.setWidth 8,
      e.originMask.setWidth 8, byte (destCode e.dest), byte (portSelCode e.port), byte (actionCode e.action),
      byte (queueCode e.queue)] ++ be16 e.hits
  let quotaBytes (n : Nat) (q : Option Nat) : List Byte := be16n n ++ match q with
    | .none => [0, 0xFF, 0xFF]
    | .some left => 1 :: be16n left
  ∀ (s : State) (p : Port) (f : Frame) (rest : List (Port × Frame)),
    let s1 := mgmtTaken s rest
    let args := f.body.drop 3
    (Requested s p f rest 4 5 →
      let set := num8 args 0
      let sid : SetId := if set = 0 then .s0 else .s1
      let e : Option MapEntry :=
        if num8 args 2 = 0 then .none else .some { page := num8 args 3, readOnly := byteAt args 4 != 0 }
      let bad := 1 < set ∨ 9 < num8 args 1 ∨ (num8 args 2 ≠ 0 ∧ 31 < num8 args 3)
      let held := s.tm.active = .some sid ∨ ∃ j ∈ s.opt.job, j.set = sid
      (bad → exec .mapWrite s = .next (reply s1 p f .badArg []))
      ∧ (¬ bad → held → exec .mapWrite s = .next (reply s1 p f .inUse []))
      ∧ ∀ k : Fin 10, k.val = num8 args 1 → ¬ bad → ¬ held →
        exec .mapWrite s = .next (reply { s1 with tm :=
            if set = 0 then { s.tm with map0 := s.tm.map0.set k e } else { s.tm with map1 := s.tm.map1.set k e } }
          p f .done ([byteAt args 0, byte k.val] ++ mapBytes (mapOf s.tm sid)[k]
            ++ [byteAt args 0, byte k.val] ++ mapBytes e)))
    ∧ (Requested s p f rest 8 10 →
      let n := num8 args 0
      let bad := 63 < num8 args 2 ∨ 63 < num8 args 3 ∨ 31 < num8 args 4 ∨ 31 < num8 args 5 ∨ 1 < num8 args 6
        ∨ 2 < num8 args 7 ∨ 3 < num8 args 8 ∨ 3 < num8 args 9
      (15 < n → exec .filterWrite s = .next (reply s1 p f .badArg []))
      ∧ ∀ k : Fin 16, k.val = n →
        let old := s.lu.filters[k]
        (bad → exec .filterWrite s = .next (reply s1 p f .badArg (byte n :: filterFields old)))
        ∧ (¬ bad → ∃ e : Filter,
          e.enabled = (byteAt args 1 != 0) ∧ e.classMatch.toNat = num8 args 2 ∧ e.classMask.toNat = num8 args 3
          ∧ e.originMatch.toNat = num8 args 4 ∧ e.originMask.toNat = num8 args 5
          ∧ destCode e.dest = num8 args 6 ∧ portSelCode e.port = num8 args 7 ∧ actionCode e.action = num8 args 8
          ∧ queueCode e.queue = num8 args 9 ∧ e.hits = 0
          ∧ exec .filterWrite s = .next (reply { s1 with lu := { s1.lu with filters := s.lu.filters.set k e } }
              p f .done (byte n :: filterFields old ++ byte n :: filterFields e))))
    ∧ (Requested s p f rest 9 3 →
      let n := num8 args 0
      let asked := num16 args 1
      let load := (binAt s.bos n).fill + (binAt s.bos n).reserved
      let sets (s1 : State) (c : Nat) : State := storeEvent s1 fun b => setBin b n { binAt b n with capacity := c }
      (47 < n ∨ 4095 < asked → exec .binWrite s = .next (reply s1 p f .badArg []))
      ∧ (n ≤ 47 → asked ≤ 4095 →
        (n ≠ 0 ∧ asked < load → exec .binWrite s = .next (reply
          ((sets s1 load).updStoreCounts fun c => { c with clampedWrites := satInc c.clampedWrites })
          p f .clamped (byte n :: be16n load)))
        ∧ (¬ (n ≠ 0 ∧ asked < load) → exec .binWrite s = .next
          (reply (sets s1 asked) p f .done (byte n :: be16n asked)))))
    ∧ (Requested s p f rest 11 5 →
      let n := num16 args 0
      let q : Option Nat := if num8 args 2 = 0 then .none else .some (num16 args 3)
      (639 < n → exec .quotaSet s = .next (reply s1 p f .badArg []))
      ∧ (n ≤ 639 → exec .quotaSet s = .next (reply
        { s1 with bos := { s.bos with quota := sparseSet .none s.bos.quota n q } } p f .done
        (quotaBytes n (sparseGet .none s.bos.quota n) ++ quotaBytes n q))))

/-- R113, R116, R130, R131, R182 to R184, R190, R191: the reading requests answer with the run, period, group or
record they name, as the state stands and in the layouts of the tables, or refuse; only a STATUS-READ changes
anything but the queues, clearing the error log. What the tables leave open of the layouts is the model's
(notes/assumptions/17.md, 18.md, 23.md, 24.md, 26.md, 27.md, 31.md, 42.md, 48.md, 54.md). -/
def Obligations.ReadingRequestsReportTheState : Prop :=
  let flag (b : Bool) : Byte := if b then 1 else 0
  let words (l : List Word) : List Byte := l.flatMap be16
  let mapBytes (e : Option MapEntry) : List Byte := match e with
    | .none => [0, 0xFF, 0xFF]
    | .some m => [1, byte m.page, flag m.readOnly]
  let filterFields (e : Filter) : List Byte :=
    [flag e.enabled, e.classMatch.setWidth 8, e.classMask.setWidth 8, e.originMatch.setWidth 8,
      e.originMask.setWidth 8, byte (destCode e.dest), byte (portSelCode e.port), byte (actionCode e.action),
      byte (queueCode e.queue)] ++ be16 e.hits
  let portFields (q : PortState) : List Byte :=
    [byte (linkCode q.link), byte (errCode q.errState), byte q.errCount]
      ++ words [q.good, q.bad, q.malformed, q.failedDiscards]
      ++ [byte q.tx.length, match q.sending with | .none => 0xFF | .some f => Config.sendingCode f.b0]
      ++ words q.drops.toList
  let queueFields (length : Nat) (overflow misrouted : Word) : List Byte :=
    byte length :: words [overflow, misrouted]
  let group (s : State) (n : Nat) : List Byte :=
    let g := s.settings
    let n2 := s.sa.counts
    let n3 := s.opt.counts
    let n4 := s.mh
    let n6 := s.bos.counts
    let l := s.lu
    match n with
    | 0 => words [s.ct.spurious, s.ct.slip, s.ct.missing, s.ct.seq] ++ be16n s.ct.c ++ [byte (modeCode s.ct.mode)]
    | 1 => words [n2.lateOpen, n2.wrongMode, n2.duplicate, n2.notLead, n2.noBuffer, n2.shortBody, n2.unknownLug,
          n2.foreignHead, n2.noBoard, n2.lateProfile, n2.badWindow, n2.noWindow, n2.excessCells, n2.badCode,
          n2.lateClose, n2.duplicateClose, n2.scanLoss]
        ++ [byte s.sa.freeList.length, byte s.sa.lossRun]
    | 2 => words [n3.started, n3.quick, n3.decided, n3.discarded, n3.fault, n3.abandoned, n3.skipped,
          n3.staleOverflow]
        ++ [byte s.opt.queue.length] ++ optSeq s.opt.queue.head? ++ optSeq (s.opt.job.map fun j => j.lug)
        ++ match s.opt.job with
          | .none => [0xFF, Config.quickOfNoJob]
          | .some j => [setCode (.some j.set), flag j.quick]
    | 3 => words [n4.acceptedGrade, n4.acceptedCut, n4.acceptedReject, n4.acceptedClear, n4.unknownLug, n4.late,
          n4.noBoard, n4.badMark, n4.full, n4.dropped, n4.shortBody]
    | 4 => pairBytes s.cu.saws ++ optSeq s.cu.source ++ optSeq (s.cu.inFlight.map fun c => c.lug)
        ++ [byte (s.ring.toList.countP fun sl => sl.committed.isSome)]
    | 5 => words [n6.shortNotice, n6.badBin, n6.catchBinNotice, n6.badDirection, n6.clampedWrites,
          n6.bin0Saturated]
    | 6 => portFields l.u ++ portFields l.d
        ++ queueFields l.scanQ.length l.overflow.scan l.misrouted.scan
        ++ queueFields l.markQ.length l.overflow.mark l.misrouted.mark
        ++ queueFields l.mgmtQ.length l.overflow.mgmt l.misrouted.mgmt
        ++ queueFields l.sorterQ.length l.overflow.sorter l.misrouted.sorter
        ++ words [l.sorterDropped, l.merged.bin, l.merged.port, l.merged.chain, l.merged.ecc, l.merged.scanLoss]
        ++ ([AlertKind.bin, .port, .chain, .ecc, .scanLoss].map fun k => flag (l.d.tx.any (TxItem.isAlert k)))
        ++ be16 s.mg.shortRequests
    | 7 => s.lu.filters.toList.flatMap filterFields
    | 8 => [setCode s.tm.active] ++ s.tm.map0.toList.flatMap mapBytes ++ s.tm.map1.toList.flatMap mapBytes
        ++ be16n s.tm.scrubPos.toNat ++ [flag s.tm.visitDue]
    | _ => be16n g.countsPerStep ++ be16n g.tol ++ be16n g.lead
        ++ [byte g.dScanwin, byte g.dLock, byte g.dTrim, byte g.dSort,
          match g.policy with | .optimize => 0 | .recycle => 1, byte g.quick]
        ++ pairBytes g.bypassPair ++ [byte g.bypassBin, byte g.ownAddress] ++ be16n g.scrubInterval
  let slotFields (sl : Slot) : List Byte :=
    let decided : List Byte := match sl.decision with
      | .none => 0 :: List.replicate 16 0xFF
      | .some d =>
        let last : List Byte := [setCode d.set, flag d.quick + 2 * flag d.partialFlag, d.revision]
        match d.body with
        | .piece p => [1, 1, byte p.i, byte p.j, byte (p.j - p.i), byte p.grade, byte p.final, byte d.wc]
            ++ be16n p.product ++ be16n p.value ++ [opt8 p.chosen, opt8 p.alternate] ++ last
        | .cull => [1, 2, 0xFF, 0xFF, 0xFF, 0xFF, 0xFF, byte d.wc, 0xFF, 0xFF, 0, 0, 0xFF, 0xFF] ++ last
        | .reject => [1, 3, 0xFF, 0xFF, 0xFF, 0xFF, 0xFF, byte d.wc, 0xFF, 0xFF, 0, 0, 0xFF, 0xFF] ++ last
    let committed : List Byte := match sl.committed with
      | .none => [0, 0] ++ List.replicate 6 0xFF
      | .some c => [1, 1, byte (kindCode c.kind)] ++ pairBytes c.saws ++ [opt8 c.bin] ++ opt16 c.product
    be16 sl.seq ++ [byte (modeCode sl.origin), byte (boardCode sl.board), scanCode sl.scan, flag sl.loss,
        flag sl.partialFlag]
      ++ be16n sl.len ++ be16n sl.width ++ [byte sl.wc, sl.expected, sl.closed, opt8 sl.buffer, opt8 sl.cap]
      ++ [byte sl.cuts.length] ++ opt16 sl.cuts[0]? ++ opt16 sl.cuts[1]? ++ opt16 sl.cuts[2]? ++ opt16 sl.cuts[3]?
      ++ [flag sl.reject, sl.revision, byte (optStateCode sl.optState)] ++ decided ++ committed ++ [causeCode sl.cause]
  ∀ (s : State) (p : Port) (f : Frame) (rest : List (Port × Frame)),
    let s1 := mgmtTaken s rest
    let args := f.body.drop 3
    (Requested s p f rest 10 2 →
      let first := num8 args 0
      let count := num8 args 1
      let good := first ≤ 47 ∧ 1 ≤ count ∧ count ≤ 24 ∧ first + count ≤ 48
      (good → exec .binRead s = .next (reply s1 p f .done
        ((List.range count).flatMap fun k =>
          let r := binAt s.bos (first + k)
          be16n r.capacity ++ be16n r.fill ++ [byte r.reserved, flag r.outOfService,
            if first + k = 0 then 0 else if r.outOfService then 2
            else if r.capacity ≤ r.fill + r.reserved then 1 else 0])))
      ∧ (¬ good → exec .binRead s = .next (reply s1 p f .badArg [])))
    ∧ (Requested s p f rest 12 3 →
      let first := num16 args 0
      let count := num8 args 2
      let good := first ≤ 639 ∧ 1 ≤ count ∧ count ≤ 100 ∧ first + count ≤ 640
      (good → ∃ present : List Byte, present.length = (count + 7) / 8
        ∧ (∀ m, m < 8 * present.length → ((present.getD (m / 8) 0).getLsbD (7 - m % 8) = true ↔
            m < count ∧ quotaAt s.bos (first + m) ≠ .none))
        ∧ exec .quotaRead s = .next (reply s1 p f .done
          (present ++ (List.range count).flatMap fun k => be16n ((quotaAt s.bos (first + k)).getD 0))))
      ∧ (¬ good → exec .quotaRead s = .next (reply s1 p f .badArg [])))
    ∧ (Requested s p f rest 13 5 →
      let first := num16 args 2
      let count := num8 args 4
      let code := num8 args 1
      let ranged (last : Nat) := first ≤ last ∧ 1 ≤ count ∧ count ≤ 48 ∧ first + count ≤ last + 1
      let good := num8 args 0 ≤ 1 ∧ (code ≤ 1 ∧ ranged 639 ∨ code = 2 ∧ ranged 47 ∨ code = 3)
      let report (t : TallyPeriod) (seq : LugSeq) (transit : Nat) : List Byte :=
        let run (x : Nat → TallyField) : List Byte :=
          (List.range count).flatMap fun k => be24 (t.count (x (first + k)))
        be16 t.number ++ [flag t.saturated] ++ (if code = 0 then run .pieces else if code = 1 then run .feet
          else if code = 2 then run .bin
          else ([.outcome .piece, .outcome .cull, .outcome .reject, .outcome .recycle, .outcome .bypass,
            .cause .unscanned, .cause .noBuffer, .cause .partialScan, .cause .skipped, .cause .lateDecision,
            .cause .fault, .cause .cutConflict, .redirects, .overQuota, .catchDiversions, .staleCommits,
            .quickPieces, .marksAccepted, .marksLate, .marksRefused,
            .clearings].flatMap fun x => be24 (t.count x)) ++ be16 seq ++ [byte transit])
      (¬ good → exec .tallyRead s = .next (reply s1 p f .badArg []))
      ∧ (good → num8 args 0 = 0 → exec .tallyRead s = .next (reply s1 p f .done
        (report s.tu.current s.ct.seq (s.ring.toList.countP fun sl => sl.committed.isSome))))
      ∧ (good → num8 args 0 = 1 → s.tu.closed = .none → exec .tallyRead s = .next (reply s1 p f .unknown []))
      ∧ (good → num8 args 0 = 1 → ∀ c, s.tu.closed = .some c → exec .tallyRead s = .next (reply s1 p f .done
        (report c.period c.seqAtClose c.inTransit))))
    ∧ (Requested s p f rest 15 1 →
      let record : List Byte := match s.tm.record with
        | .none => [0, 0xFF, 0xFF, 0xFF]
        | .some r => [1, byte r.page, byte r.word, byte (requesterCode r.who)]
      (9 < num8 args 0 → exec .statusRead s = .next (reply s1 p f .badArg []))
      ∧ (num8 args 0 ≤ 9 → exec .statusRead s = .next (reply
        { s1 with tm := { s.tm with record := .none, corrected := 0, uncorrected := 0 } }
        p f .done (record ++ words [s.tm.corrected, s.tm.uncorrected] ++ group s1 (num8 args 0)))))
    ∧ (Requested s p f rest 16 2 →
      let lug := word16 args 0
      let off := (s.ct.seq - lug).toNat
      (s.settings.dSort < off → exec .lugRead s = .next (reply s1 p f .unknown (be16n off)))
      ∧ (off ≤ s.settings.dSort → exec .lugRead s = .next
        (reply s1 p f .done (be16n off ++ slotFields (slotAt s lug)))))

/-- R122, R128, R129, R132: a TALLY-CLOSE whose guard passes moves the current period, with the sequence and the
lugs in transit, to the closed one and begins the next, empty; the closed period changes in no other way but at
power-on. A count added to a field leaves every other field, and saturates at 16,777,215 with the period's flag. -/
def Obligations.TallyCloseBeginsTheNextPeriod : Prop :=
  (∀ (t : TallyPeriod) (x : TallyField) (n : Nat), sparseWf 0 t.counts = true →
    let total := (t.count x).toNat + n
    (∀ y : TallyField, ((t.add x n).count y).toNat = if y = x then min 16777215 total else (t.count y).toNat)
    ∧ (t.add x n).saturated = (t.saturated || decide (16777215 < total)) ∧ (t.add x n).number = t.number)
  ∧ (∀ (s : State) (p : Port) (f : Frame) (rest : List (Port × Frame)), Requested s p f rest 14 3 →
    let s1 := mgmtTaken s rest
    let args := f.body.drop 3
    let now := s.tu.current
    let next : TallyPeriod := { number := now.number + 1, counts := [], saturated := false }
    let closes := num8 args 0 ≠ 0 ∨ word16 args 1 = now.number
    (closes → exec .tallyClose s = .next (reply
      { s1 with tu := {
          current := next
          closed := .some {
            period := now
            seqAtClose := s.ct.seq
            inTransit := s.ring.toList.countP fun sl => sl.committed.isSome } } }
      p f .done (be16 (now.number + 1) ++ 1 :: be16 now.number)))
    ∧ (¬ closes → exec .tallyClose s = .next (reply s1 p f .badArg
      (be16 now.number ++ match s.tu.closed with
        | .none => [0, 0xFF, 0xFF]
        | .some c => 1 :: be16 c.period.number))))
  ∧ ∀ (c : Instr) (s t : State), exec c s = .next t → c ≠ .tallyClose → c ≠ .powerOn → t.tu.closed = s.tu.closed

/-- R175, R177 to R180: a request with a body too short or naming no request is answered BAD-REQUEST and counted,
and one lost to a full MGMT queue is answered FULL; a reply carries the status word of Table 11-7, the code and id
echoed, the result and its data, with the header R179 gives. That a lost frame of another class than MGMT-REQUEST is
answered too, and that the word is built before the reply joins its queue, are the model's (notes/assumptions/29.md,
50.md). -/
def Obligations.BadAndLostRequestsAreAnswered : Prop :=
  (∀ s : State,
    let w := statusWord s
    w.extractLsb' 0 2 = BitVec.ofNat 2 (modeCode s.ct.mode)
    ∧ w.extractLsb' 2 2 = (match s.tm.active with | .some .s0 => 0 | .some .s1 => 1 | .none => 3)
    ∧ w.getLsbD 4 = decide (s.lu.u.link = .up) ∧ w.getLsbD 5 = decide (s.lu.d.link = .up)
    ∧ w.extractLsb' 6 2 = BitVec.ofNat 2 (errCode s.lu.u.errState)
    ∧ w.extractLsb' 8 2 = BitVec.ofNat 2 (errCode s.lu.d.errState)
    ∧ w.getLsbD 10 = s.opt.lastQuick
    ∧ w.getLsbD 11 = (s.lu.d.tx.any fun x => match x with | .alert _ _ => true | .frame _ _ => false)
    ∧ w.getLsbD 12 = s.tm.record.isSome ∧ w.getLsbD 13 = s.ct.starting ∧ w.extractLsb' 14 2 = 0)
  ∧ ∀ (s : State) (p : Port) (f : Frame) (rest : List (Port × Frame)), s.resetPin = false →
    let args : List Nat := [0, 4, 4, 5, 5, 1, 1, 20, 10, 3, 2, 5, 3, 5, 3, 1, 2, 0]
    let code := num8 f.body 0
    let sound := 3 ≤ f.body.length ∧ 1 ≤ code ∧ code ≤ 17 ∧ 3 + args.getD code 0 ≤ f.body.length
    (s.mg.exec = .none → s.ct.starting = false → s.lu.mgmtQ = (p, f) :: rest → frameClass f = 32 → ¬ sound →
      exec .badRequest s = .next (reply { mgmtTaken s rest with
        mg := { s.mg with shortRequests := satInc s.mg.shortRequests } } p f .badRequest []))
    ∧ (s.handed.mgmtOverflows = (p, f) :: rest → exec .mgmtQueueOverflow s = .next
      (reply { s with handed := { s.handed with mgmtOverflows := rest } } p f .full []))
    ∧ ∀ (r : Result) (data : List Byte), reply s p f r data = enqueue s p (.frame 1
      (makeFrame 33 s.settings.ownAddress (f.b1.extractLsb' 0 5).toNat f.tag
        (be16 (statusWord s) ++ (if 3 ≤ f.body.length then f.body.take 3 else [0, 0, 0])
          ++ [byte (resultCode r)] ++ data)))

/-! ### Resets -/

/-- R21, R43, R69, R84, R103, R119, R127, R152 to R154, R163, R173, R185 to R187: what power-on, the end of the
sweep, the reset input and SOFT-RESET leave. Events handed over and not taken are discarded, the values of a
cut write are free, power-on keeps the words, the map cells and the pin, and the assertion leaves every other value
standing (the model's, notes/assumptions/8.md, 15.md, 2.md, 35.md, 44.md). -/
def Obligations.ResetsLeaveTheValuesOfTheTables : Prop :=
  ∀ s : State,
    let slots : Vector Slot 64 :=
      Vector.ofFn fun k => Slot.empty (if k.val = 0 then 0 else BitVec.ofNat 16 (65536 - (64 - k.val)))
    let lined (starting : Bool) : State := { s with
      ct := { seq := 0, c := 0, switchHanded := false, spurious := 0, slip := 0, missing := 0, mode := .stop,
              starting := starting }
      ring := slots
      sa := {
        cache := s.sa.cache
        buffers := s.sa.buffers
        freeList := List.range 24
        cursors := Vector.replicate 8 .none
        lossRun := 0
        counts := {} }
      opt := { queue := [], job := .none, lastQuick := false, counts := {} }
      mh := {}
      cu := { saws := .none, source := .none, inFlight := .none, heldLocks := [], heldSwitch := .none }
      bos := {
        bins := s.bos.bins.map fun r => { r with reserved := 0 }
        quota := s.bos.quota
        counts := {} }
      tu := { s.tu with current := s.tu.current.add .clearings 1 }
      mg := { exec := .none, shortRequests := 0 }
      handed := {} }
    exec .powerOn s = .next { State.reset with
        tm := { State.reset.tm with words := s.tm.words }
        sa := { State.reset.sa with buffers := s.sa.buffers }
        resetPin := s.resetPin, freeCount := s.freeCount, pending := s.pending }
    ∧ (s.resetPin = false → s.ct.starting = true → exec .sweepComplete s = .next { s with
        ct := { s.ct with starting := false, mode := .stop }
        tm := { s.tm with words := [], scrubPos := 0, scrubTimer := .some s.settings.scrubInterval } })
    ∧ (s.resetPin = false → ∃ t, exec .resetAssert s = .next t
        ∧ t.resetPin = true ∧ t.cu = { s.cu with saws := .none }
        ∧ t.lu = { s.lu with u := { s.lu.u with sending := .none, rx := .none }
                             d := { s.lu.d with sending := .none, rx := .none } }
        ∧ t.tm.access = .none ∧ { t.tm with words := s.tm.words, access := s.tm.access } = s.tm
        ∧ (t.tm.words = s.tm.words ∨ ∃ a v, s.tm.access = .some a
            ∧ t.tm.words = sparseSet blankWord s.tm.words a.index { written := v, changed := 0 }
            ∧ (a.kind = .write v ∨ a.kind = .scrub ∧ checkAt s a.index = .single v
              ∨ ∃ h b w, a.kind = .writeByte h b ∧ v = mergeHalf h b w
                ∧ (checkAt s a.index = .clean w ∨ checkAt s a.index = .single w)))
        ∧ unchangedBut [.cu, .tm, .lu, .resetPin, .freeCount] s t)
    ∧ (s.resetPin = true → exec .resetRelease s = .next { lined s.ct.starting with
        settings := Settings.defaults
        lu := LinkUnit.atReset
        resetPin := false
        tm := { s.tm with
          record := .none, corrected := 0, uncorrected := 0, scrubPos := 0, visitDue := false, access := .none
          waitCommit := .none, waitOpt := .none, waitMgmt := .none
          scrubTimer := if s.ct.starting then .none else .some 100 } })
    ∧ ∀ (p : Port) (f : Frame) (rest : List (Port × Frame)), Requested s p f rest 17 0 →
      exec .softReset s = .next (reply { lined false with
        tm := { s.tm with
          visitDue := false, waitCommit := .none, waitOpt := .none, waitMgmt := .none
          access := s.tm.access.map fun a =>
            if a.who = .commit ∨ a.who = .optimizer then { a with wanted := false } else a }
        lu := { s.lu with
          scanQ := [], markQ := [], mgmtQ := [], sorterQ := []
          u := { s.lu.u with tx := [] }
          d := { s.lu.d with tx := [] } } } p f .done [])
end

