-- ==== Sys2Proof/Laws/State.lean ====
section
/-! SUPPORT. The fields of a state after an update of one block: one lemma for each field and update. -/

namespace Sys2Proof.Machine

open Sys2Proof

variable (s : State)

@[simp] theorem State.updSettings_settings (f : Settings → Settings) : (s.updSettings f).settings = f s.settings := rfl
@[simp] theorem State.updSettings_ct (f : Settings → Settings) : (s.updSettings f).ct = s.ct := rfl
@[simp] theorem State.updSettings_ring (f : Settings → Settings) : (s.updSettings f).ring = s.ring := rfl
@[simp] theorem State.updSettings_sa (f : Settings → Settings) : (s.updSettings f).sa = s.sa := rfl
@[simp] theorem State.updSettings_opt (f : Settings → Settings) : (s.updSettings f).opt = s.opt := rfl
@[simp] theorem State.updSettings_mh (f : Settings → Settings) : (s.updSettings f).mh = s.mh := rfl
@[simp] theorem State.updSettings_cu (f : Settings → Settings) : (s.updSettings f).cu = s.cu := rfl
@[simp] theorem State.updSettings_bos (f : Settings → Settings) : (s.updSettings f).bos = s.bos := rfl
@[simp] theorem State.updSettings_tu (f : Settings → Settings) : (s.updSettings f).tu = s.tu := rfl
@[simp] theorem State.updSettings_tm (f : Settings → Settings) : (s.updSettings f).tm = s.tm := rfl
@[simp] theorem State.updSettings_lu (f : Settings → Settings) : (s.updSettings f).lu = s.lu := rfl
@[simp] theorem State.updSettings_mg (f : Settings → Settings) : (s.updSettings f).mg = s.mg := rfl
@[simp] theorem State.updSettings_resetPin (f : Settings → Settings) : (s.updSettings f).resetPin = s.resetPin := rfl
@[simp] theorem State.updSettings_handed (f : Settings → Settings) : (s.updSettings f).handed = s.handed := rfl
@[simp] theorem State.updSettings_freeCount (f : Settings → Settings) : (s.updSettings f).freeCount = s.freeCount := rfl
@[simp] theorem State.updSettings_pending (f : Settings → Settings) : (s.updSettings f).pending = s.pending := rfl

@[simp] theorem State.updCt_settings (f : Chain → Chain) : (s.updCt f).settings = s.settings := rfl
@[simp] theorem State.updCt_ct (f : Chain → Chain) : (s.updCt f).ct = f s.ct := rfl
@[simp] theorem State.updCt_ring (f : Chain → Chain) : (s.updCt f).ring = s.ring := rfl
@[simp] theorem State.updCt_sa (f : Chain → Chain) : (s.updCt f).sa = s.sa := rfl
@[simp] theorem State.updCt_opt (f : Chain → Chain) : (s.updCt f).opt = s.opt := rfl
@[simp] theorem State.updCt_mh (f : Chain → Chain) : (s.updCt f).mh = s.mh := rfl
@[simp] theorem State.updCt_cu (f : Chain → Chain) : (s.updCt f).cu = s.cu := rfl
@[simp] theorem State.updCt_bos (f : Chain → Chain) : (s.updCt f).bos = s.bos := rfl
@[simp] theorem State.updCt_tu (f : Chain → Chain) : (s.updCt f).tu = s.tu := rfl
@[simp] theorem State.updCt_tm (f : Chain → Chain) : (s.updCt f).tm = s.tm := rfl
@[simp] theorem State.updCt_lu (f : Chain → Chain) : (s.updCt f).lu = s.lu := rfl
@[simp] theorem State.updCt_mg (f : Chain → Chain) : (s.updCt f).mg = s.mg := rfl
@[simp] theorem State.updCt_resetPin (f : Chain → Chain) : (s.updCt f).resetPin = s.resetPin := rfl
@[simp] theorem State.updCt_handed (f : Chain → Chain) : (s.updCt f).handed = s.handed := rfl
@[simp] theorem State.updCt_freeCount (f : Chain → Chain) : (s.updCt f).freeCount = s.freeCount := rfl
@[simp] theorem State.updCt_pending (f : Chain → Chain) : (s.updCt f).pending = s.pending := rfl

@[simp] theorem State.updRing_settings (f : Vector Slot 64 → Vector Slot 64) : (s.updRing f).settings = s.settings := rfl
@[simp] theorem State.updRing_ct (f : Vector Slot 64 → Vector Slot 64) : (s.updRing f).ct = s.ct := rfl
@[simp] theorem State.updRing_ring (f : Vector Slot 64 → Vector Slot 64) : (s.updRing f).ring = f s.ring := rfl
@[simp] theorem State.updRing_sa (f : Vector Slot 64 → Vector Slot 64) : (s.updRing f).sa = s.sa := rfl
@[simp] theorem State.updRing_opt (f : Vector Slot 64 → Vector Slot 64) : (s.updRing f).opt = s.opt := rfl
@[simp] theorem State.updRing_mh (f : Vector Slot 64 → Vector Slot 64) : (s.updRing f).mh = s.mh := rfl
@[simp] theorem State.updRing_cu (f : Vector Slot 64 → Vector Slot 64) : (s.updRing f).cu = s.cu := rfl
@[simp] theorem State.updRing_bos (f : Vector Slot 64 → Vector Slot 64) : (s.updRing f).bos = s.bos := rfl
@[simp] theorem State.updRing_tu (f : Vector Slot 64 → Vector Slot 64) : (s.updRing f).tu = s.tu := rfl
@[simp] theorem State.updRing_tm (f : Vector Slot 64 → Vector Slot 64) : (s.updRing f).tm = s.tm := rfl
@[simp] theorem State.updRing_lu (f : Vector Slot 64 → Vector Slot 64) : (s.updRing f).lu = s.lu := rfl
@[simp] theorem State.updRing_mg (f : Vector Slot 64 → Vector Slot 64) : (s.updRing f).mg = s.mg := rfl
@[simp] theorem State.updRing_resetPin (f : Vector Slot 64 → Vector Slot 64) : (s.updRing f).resetPin = s.resetPin := rfl
@[simp] theorem State.updRing_handed (f : Vector Slot 64 → Vector Slot 64) : (s.updRing f).handed = s.handed := rfl
@[simp] theorem State.updRing_freeCount (f : Vector Slot 64 → Vector Slot 64) : (s.updRing f).freeCount = s.freeCount := rfl
@[simp] theorem State.updRing_pending (f : Vector Slot 64 → Vector Slot 64) : (s.updRing f).pending = s.pending := rfl

@[simp] theorem State.updSa_settings (f : ScanAssembler → ScanAssembler) : (s.updSa f).settings = s.settings := rfl
@[simp] theorem State.updSa_ct (f : ScanAssembler → ScanAssembler) : (s.updSa f).ct = s.ct := rfl
@[simp] theorem State.updSa_ring (f : ScanAssembler → ScanAssembler) : (s.updSa f).ring = s.ring := rfl
@[simp] theorem State.updSa_sa (f : ScanAssembler → ScanAssembler) : (s.updSa f).sa = f s.sa := rfl
@[simp] theorem State.updSa_opt (f : ScanAssembler → ScanAssembler) : (s.updSa f).opt = s.opt := rfl
@[simp] theorem State.updSa_mh (f : ScanAssembler → ScanAssembler) : (s.updSa f).mh = s.mh := rfl
@[simp] theorem State.updSa_cu (f : ScanAssembler → ScanAssembler) : (s.updSa f).cu = s.cu := rfl
@[simp] theorem State.updSa_bos (f : ScanAssembler → ScanAssembler) : (s.updSa f).bos = s.bos := rfl
@[simp] theorem State.updSa_tu (f : ScanAssembler → ScanAssembler) : (s.updSa f).tu = s.tu := rfl
@[simp] theorem State.updSa_tm (f : ScanAssembler → ScanAssembler) : (s.updSa f).tm = s.tm := rfl
@[simp] theorem State.updSa_lu (f : ScanAssembler → ScanAssembler) : (s.updSa f).lu = s.lu := rfl
@[simp] theorem State.updSa_mg (f : ScanAssembler → ScanAssembler) : (s.updSa f).mg = s.mg := rfl
@[simp] theorem State.updSa_resetPin (f : ScanAssembler → ScanAssembler) : (s.updSa f).resetPin = s.resetPin := rfl
@[simp] theorem State.updSa_handed (f : ScanAssembler → ScanAssembler) : (s.updSa f).handed = s.handed := rfl
@[simp] theorem State.updSa_freeCount (f : ScanAssembler → ScanAssembler) : (s.updSa f).freeCount = s.freeCount := rfl
@[simp] theorem State.updSa_pending (f : ScanAssembler → ScanAssembler) : (s.updSa f).pending = s.pending := rfl

@[simp] theorem State.updOpt_settings (f : Optimizer → Optimizer) : (s.updOpt f).settings = s.settings := rfl
@[simp] theorem State.updOpt_ct (f : Optimizer → Optimizer) : (s.updOpt f).ct = s.ct := rfl
@[simp] theorem State.updOpt_ring (f : Optimizer → Optimizer) : (s.updOpt f).ring = s.ring := rfl
@[simp] theorem State.updOpt_sa (f : Optimizer → Optimizer) : (s.updOpt f).sa = s.sa := rfl
@[simp] theorem State.updOpt_opt (f : Optimizer → Optimizer) : (s.updOpt f).opt = f s.opt := rfl
@[simp] theorem State.updOpt_mh (f : Optimizer → Optimizer) : (s.updOpt f).mh = s.mh := rfl
@[simp] theorem State.updOpt_cu (f : Optimizer → Optimizer) : (s.updOpt f).cu = s.cu := rfl
@[simp] theorem State.updOpt_bos (f : Optimizer → Optimizer) : (s.updOpt f).bos = s.bos := rfl
@[simp] theorem State.updOpt_tu (f : Optimizer → Optimizer) : (s.updOpt f).tu = s.tu := rfl
@[simp] theorem State.updOpt_tm (f : Optimizer → Optimizer) : (s.updOpt f).tm = s.tm := rfl
@[simp] theorem State.updOpt_lu (f : Optimizer → Optimizer) : (s.updOpt f).lu = s.lu := rfl
@[simp] theorem State.updOpt_mg (f : Optimizer → Optimizer) : (s.updOpt f).mg = s.mg := rfl
@[simp] theorem State.updOpt_resetPin (f : Optimizer → Optimizer) : (s.updOpt f).resetPin = s.resetPin := rfl
@[simp] theorem State.updOpt_handed (f : Optimizer → Optimizer) : (s.updOpt f).handed = s.handed := rfl
@[simp] theorem State.updOpt_freeCount (f : Optimizer → Optimizer) : (s.updOpt f).freeCount = s.freeCount := rfl
@[simp] theorem State.updOpt_pending (f : Optimizer → Optimizer) : (s.updOpt f).pending = s.pending := rfl

@[simp] theorem State.updMh_settings (f : MarkCounts → MarkCounts) : (s.updMh f).settings = s.settings := rfl
@[simp] theorem State.updMh_ct (f : MarkCounts → MarkCounts) : (s.updMh f).ct = s.ct := rfl
@[simp] theorem State.updMh_ring (f : MarkCounts → MarkCounts) : (s.updMh f).ring = s.ring := rfl
@[simp] theorem State.updMh_sa (f : MarkCounts → MarkCounts) : (s.updMh f).sa = s.sa := rfl
@[simp] theorem State.updMh_opt (f : MarkCounts → MarkCounts) : (s.updMh f).opt = s.opt := rfl
@[simp] theorem State.updMh_mh (f : MarkCounts → MarkCounts) : (s.updMh f).mh = f s.mh := rfl
@[simp] theorem State.updMh_cu (f : MarkCounts → MarkCounts) : (s.updMh f).cu = s.cu := rfl
@[simp] theorem State.updMh_bos (f : MarkCounts → MarkCounts) : (s.updMh f).bos = s.bos := rfl
@[simp] theorem State.updMh_tu (f : MarkCounts → MarkCounts) : (s.updMh f).tu = s.tu := rfl
@[simp] theorem State.updMh_tm (f : MarkCounts → MarkCounts) : (s.updMh f).tm = s.tm := rfl
@[simp] theorem State.updMh_lu (f : MarkCounts → MarkCounts) : (s.updMh f).lu = s.lu := rfl
@[simp] theorem State.updMh_mg (f : MarkCounts → MarkCounts) : (s.updMh f).mg = s.mg := rfl
@[simp] theorem State.updMh_resetPin (f : MarkCounts → MarkCounts) : (s.updMh f).resetPin = s.resetPin := rfl
@[simp] theorem State.updMh_handed (f : MarkCounts → MarkCounts) : (s.updMh f).handed = s.handed := rfl
@[simp] theorem State.updMh_freeCount (f : MarkCounts → MarkCounts) : (s.updMh f).freeCount = s.freeCount := rfl
@[simp] theorem State.updMh_pending (f : MarkCounts → MarkCounts) : (s.updMh f).pending = s.pending := rfl

@[simp] theorem State.updCu_settings (f : CommitUnit → CommitUnit) : (s.updCu f).settings = s.settings := rfl
@[simp] theorem State.updCu_ct (f : CommitUnit → CommitUnit) : (s.updCu f).ct = s.ct := rfl
@[simp] theorem State.updCu_ring (f : CommitUnit → CommitUnit) : (s.updCu f).ring = s.ring := rfl
@[simp] theorem State.updCu_sa (f : CommitUnit → CommitUnit) : (s.updCu f).sa = s.sa := rfl
@[simp] theorem State.updCu_opt (f : CommitUnit → CommitUnit) : (s.updCu f).opt = s.opt := rfl
@[simp] theorem State.updCu_mh (f : CommitUnit → CommitUnit) : (s.updCu f).mh = s.mh := rfl
@[simp] theorem State.updCu_cu (f : CommitUnit → CommitUnit) : (s.updCu f).cu = f s.cu := rfl
@[simp] theorem State.updCu_bos (f : CommitUnit → CommitUnit) : (s.updCu f).bos = s.bos := rfl
@[simp] theorem State.updCu_tu (f : CommitUnit → CommitUnit) : (s.updCu f).tu = s.tu := rfl
@[simp] theorem State.updCu_tm (f : CommitUnit → CommitUnit) : (s.updCu f).tm = s.tm := rfl
@[simp] theorem State.updCu_lu (f : CommitUnit → CommitUnit) : (s.updCu f).lu = s.lu := rfl
@[simp] theorem State.updCu_mg (f : CommitUnit → CommitUnit) : (s.updCu f).mg = s.mg := rfl
@[simp] theorem State.updCu_resetPin (f : CommitUnit → CommitUnit) : (s.updCu f).resetPin = s.resetPin := rfl
@[simp] theorem State.updCu_handed (f : CommitUnit → CommitUnit) : (s.updCu f).handed = s.handed := rfl
@[simp] theorem State.updCu_freeCount (f : CommitUnit → CommitUnit) : (s.updCu f).freeCount = s.freeCount := rfl
@[simp] theorem State.updCu_pending (f : CommitUnit → CommitUnit) : (s.updCu f).pending = s.pending := rfl

@[simp] theorem State.updBos_settings (f : BinStore → BinStore) : (s.updBos f).settings = s.settings := rfl
@[simp] theorem State.updBos_ct (f : BinStore → BinStore) : (s.updBos f).ct = s.ct := rfl
@[simp] theorem State.updBos_ring (f : BinStore → BinStore) : (s.updBos f).ring = s.ring := rfl
@[simp] theorem State.updBos_sa (f : BinStore → BinStore) : (s.updBos f).sa = s.sa := rfl
@[simp] theorem State.updBos_opt (f : BinStore → BinStore) : (s.updBos f).opt = s.opt := rfl
@[simp] theorem State.updBos_mh (f : BinStore → BinStore) : (s.updBos f).mh = s.mh := rfl
@[simp] theorem State.updBos_cu (f : BinStore → BinStore) : (s.updBos f).cu = s.cu := rfl
@[simp] theorem State.updBos_bos (f : BinStore → BinStore) : (s.updBos f).bos = f s.bos := rfl
@[simp] theorem State.updBos_tu (f : BinStore → BinStore) : (s.updBos f).tu = s.tu := rfl
@[simp] theorem State.updBos_tm (f : BinStore → BinStore) : (s.updBos f).tm = s.tm := rfl
@[simp] theorem State.updBos_lu (f : BinStore → BinStore) : (s.updBos f).lu = s.lu := rfl
@[simp] theorem State.updBos_mg (f : BinStore → BinStore) : (s.updBos f).mg = s.mg := rfl
@[simp] theorem State.updBos_resetPin (f : BinStore → BinStore) : (s.updBos f).resetPin = s.resetPin := rfl
@[simp] theorem State.updBos_handed (f : BinStore → BinStore) : (s.updBos f).handed = s.handed := rfl
@[simp] theorem State.updBos_freeCount (f : BinStore → BinStore) : (s.updBos f).freeCount = s.freeCount := rfl
@[simp] theorem State.updBos_pending (f : BinStore → BinStore) : (s.updBos f).pending = s.pending := rfl

@[simp] theorem State.updTu_settings (f : Tally → Tally) : (s.updTu f).settings = s.settings := rfl
@[simp] theorem State.updTu_ct (f : Tally → Tally) : (s.updTu f).ct = s.ct := rfl
@[simp] theorem State.updTu_ring (f : Tally → Tally) : (s.updTu f).ring = s.ring := rfl
@[simp] theorem State.updTu_sa (f : Tally → Tally) : (s.updTu f).sa = s.sa := rfl
@[simp] theorem State.updTu_opt (f : Tally → Tally) : (s.updTu f).opt = s.opt := rfl
@[simp] theorem State.updTu_mh (f : Tally → Tally) : (s.updTu f).mh = s.mh := rfl
@[simp] theorem State.updTu_cu (f : Tally → Tally) : (s.updTu f).cu = s.cu := rfl
@[simp] theorem State.updTu_bos (f : Tally → Tally) : (s.updTu f).bos = s.bos := rfl
@[simp] theorem State.updTu_tu (f : Tally → Tally) : (s.updTu f).tu = f s.tu := rfl
@[simp] theorem State.updTu_tm (f : Tally → Tally) : (s.updTu f).tm = s.tm := rfl
@[simp] theorem State.updTu_lu (f : Tally → Tally) : (s.updTu f).lu = s.lu := rfl
@[simp] theorem State.updTu_mg (f : Tally → Tally) : (s.updTu f).mg = s.mg := rfl
@[simp] theorem State.updTu_resetPin (f : Tally → Tally) : (s.updTu f).resetPin = s.resetPin := rfl
@[simp] theorem State.updTu_handed (f : Tally → Tally) : (s.updTu f).handed = s.handed := rfl
@[simp] theorem State.updTu_freeCount (f : Tally → Tally) : (s.updTu f).freeCount = s.freeCount := rfl
@[simp] theorem State.updTu_pending (f : Tally → Tally) : (s.updTu f).pending = s.pending := rfl

@[simp] theorem State.updTm_settings (f : TableMemory → TableMemory) : (s.updTm f).settings = s.settings := rfl
@[simp] theorem State.updTm_ct (f : TableMemory → TableMemory) : (s.updTm f).ct = s.ct := rfl
@[simp] theorem State.updTm_ring (f : TableMemory → TableMemory) : (s.updTm f).ring = s.ring := rfl
@[simp] theorem State.updTm_sa (f : TableMemory → TableMemory) : (s.updTm f).sa = s.sa := rfl
@[simp] theorem State.updTm_opt (f : TableMemory → TableMemory) : (s.updTm f).opt = s.opt := rfl
@[simp] theorem State.updTm_mh (f : TableMemory → TableMemory) : (s.updTm f).mh = s.mh := rfl
@[simp] theorem State.updTm_cu (f : TableMemory → TableMemory) : (s.updTm f).cu = s.cu := rfl
@[simp] theorem State.updTm_bos (f : TableMemory → TableMemory) : (s.updTm f).bos = s.bos := rfl
@[simp] theorem State.updTm_tu (f : TableMemory → TableMemory) : (s.updTm f).tu = s.tu := rfl
@[simp] theorem State.updTm_tm (f : TableMemory → TableMemory) : (s.updTm f).tm = f s.tm := rfl
@[simp] theorem State.updTm_lu (f : TableMemory → TableMemory) : (s.updTm f).lu = s.lu := rfl
@[simp] theorem State.updTm_mg (f : TableMemory → TableMemory) : (s.updTm f).mg = s.mg := rfl
@[simp] theorem State.updTm_resetPin (f : TableMemory → TableMemory) : (s.updTm f).resetPin = s.resetPin := rfl
@[simp] theorem State.updTm_handed (f : TableMemory → TableMemory) : (s.updTm f).handed = s.handed := rfl
@[simp] theorem State.updTm_freeCount (f : TableMemory → TableMemory) : (s.updTm f).freeCount = s.freeCount := rfl
@[simp] theorem State.updTm_pending (f : TableMemory → TableMemory) : (s.updTm f).pending = s.pending := rfl

@[simp] theorem State.updLu_settings (f : LinkUnit → LinkUnit) : (s.updLu f).settings = s.settings := rfl
@[simp] theorem State.updLu_ct (f : LinkUnit → LinkUnit) : (s.updLu f).ct = s.ct := rfl
@[simp] theorem State.updLu_ring (f : LinkUnit → LinkUnit) : (s.updLu f).ring = s.ring := rfl
@[simp] theorem State.updLu_sa (f : LinkUnit → LinkUnit) : (s.updLu f).sa = s.sa := rfl
@[simp] theorem State.updLu_opt (f : LinkUnit → LinkUnit) : (s.updLu f).opt = s.opt := rfl
@[simp] theorem State.updLu_mh (f : LinkUnit → LinkUnit) : (s.updLu f).mh = s.mh := rfl
@[simp] theorem State.updLu_cu (f : LinkUnit → LinkUnit) : (s.updLu f).cu = s.cu := rfl
@[simp] theorem State.updLu_bos (f : LinkUnit → LinkUnit) : (s.updLu f).bos = s.bos := rfl
@[simp] theorem State.updLu_tu (f : LinkUnit → LinkUnit) : (s.updLu f).tu = s.tu := rfl
@[simp] theorem State.updLu_tm (f : LinkUnit → LinkUnit) : (s.updLu f).tm = s.tm := rfl
@[simp] theorem State.updLu_lu (f : LinkUnit → LinkUnit) : (s.updLu f).lu = f s.lu := rfl
@[simp] theorem State.updLu_mg (f : LinkUnit → LinkUnit) : (s.updLu f).mg = s.mg := rfl
@[simp] theorem State.updLu_resetPin (f : LinkUnit → LinkUnit) : (s.updLu f).resetPin = s.resetPin := rfl
@[simp] theorem State.updLu_handed (f : LinkUnit → LinkUnit) : (s.updLu f).handed = s.handed := rfl
@[simp] theorem State.updLu_freeCount (f : LinkUnit → LinkUnit) : (s.updLu f).freeCount = s.freeCount := rfl
@[simp] theorem State.updLu_pending (f : LinkUnit → LinkUnit) : (s.updLu f).pending = s.pending := rfl

@[simp] theorem State.updMg_settings (f : Management → Management) : (s.updMg f).settings = s.settings := rfl
@[simp] theorem State.updMg_ct (f : Management → Management) : (s.updMg f).ct = s.ct := rfl
@[simp] theorem State.updMg_ring (f : Management → Management) : (s.updMg f).ring = s.ring := rfl
@[simp] theorem State.updMg_sa (f : Management → Management) : (s.updMg f).sa = s.sa := rfl
@[simp] theorem State.updMg_opt (f : Management → Management) : (s.updMg f).opt = s.opt := rfl
@[simp] theorem State.updMg_mh (f : Management → Management) : (s.updMg f).mh = s.mh := rfl
@[simp] theorem State.updMg_cu (f : Management → Management) : (s.updMg f).cu = s.cu := rfl
@[simp] theorem State.updMg_bos (f : Management → Management) : (s.updMg f).bos = s.bos := rfl
@[simp] theorem State.updMg_tu (f : Management → Management) : (s.updMg f).tu = s.tu := rfl
@[simp] theorem State.updMg_tm (f : Management → Management) : (s.updMg f).tm = s.tm := rfl
@[simp] theorem State.updMg_lu (f : Management → Management) : (s.updMg f).lu = s.lu := rfl
@[simp] theorem State.updMg_mg (f : Management → Management) : (s.updMg f).mg = f s.mg := rfl
@[simp] theorem State.updMg_resetPin (f : Management → Management) : (s.updMg f).resetPin = s.resetPin := rfl
@[simp] theorem State.updMg_handed (f : Management → Management) : (s.updMg f).handed = s.handed := rfl
@[simp] theorem State.updMg_freeCount (f : Management → Management) : (s.updMg f).freeCount = s.freeCount := rfl
@[simp] theorem State.updMg_pending (f : Management → Management) : (s.updMg f).pending = s.pending := rfl

@[simp] theorem State.updHanded_settings (f : HandedOver → HandedOver) : (s.updHanded f).settings = s.settings := rfl
@[simp] theorem State.updHanded_ct (f : HandedOver → HandedOver) : (s.updHanded f).ct = s.ct := rfl
@[simp] theorem State.updHanded_ring (f : HandedOver → HandedOver) : (s.updHanded f).ring = s.ring := rfl
@[simp] theorem State.updHanded_sa (f : HandedOver → HandedOver) : (s.updHanded f).sa = s.sa := rfl
@[simp] theorem State.updHanded_opt (f : HandedOver → HandedOver) : (s.updHanded f).opt = s.opt := rfl
@[simp] theorem State.updHanded_mh (f : HandedOver → HandedOver) : (s.updHanded f).mh = s.mh := rfl
@[simp] theorem State.updHanded_cu (f : HandedOver → HandedOver) : (s.updHanded f).cu = s.cu := rfl
@[simp] theorem State.updHanded_bos (f : HandedOver → HandedOver) : (s.updHanded f).bos = s.bos := rfl
@[simp] theorem State.updHanded_tu (f : HandedOver → HandedOver) : (s.updHanded f).tu = s.tu := rfl
@[simp] theorem State.updHanded_tm (f : HandedOver → HandedOver) : (s.updHanded f).tm = s.tm := rfl
@[simp] theorem State.updHanded_lu (f : HandedOver → HandedOver) : (s.updHanded f).lu = s.lu := rfl
@[simp] theorem State.updHanded_mg (f : HandedOver → HandedOver) : (s.updHanded f).mg = s.mg := rfl
@[simp] theorem State.updHanded_resetPin (f : HandedOver → HandedOver) : (s.updHanded f).resetPin = s.resetPin := rfl
@[simp] theorem State.updHanded_handed (f : HandedOver → HandedOver) : (s.updHanded f).handed = f s.handed := rfl
@[simp] theorem State.updHanded_freeCount (f : HandedOver → HandedOver) : (s.updHanded f).freeCount = s.freeCount := rfl
@[simp] theorem State.updHanded_pending (f : HandedOver → HandedOver) : (s.updHanded f).pending = s.pending := rfl

@[simp] theorem State.report_tu (l : List (TallyField × Nat)) : (s.report l).tu =
    { s.tu with current := l.foldl (fun t c => t.add c.1 c.2) s.tu.current } := rfl
@[simp] theorem State.report_settings (l : List (TallyField × Nat)) : (s.report l).settings = s.settings := rfl
@[simp] theorem State.report_ct (l : List (TallyField × Nat)) : (s.report l).ct = s.ct := rfl
@[simp] theorem State.report_ring (l : List (TallyField × Nat)) : (s.report l).ring = s.ring := rfl
@[simp] theorem State.report_sa (l : List (TallyField × Nat)) : (s.report l).sa = s.sa := rfl
@[simp] theorem State.report_opt (l : List (TallyField × Nat)) : (s.report l).opt = s.opt := rfl
@[simp] theorem State.report_mh (l : List (TallyField × Nat)) : (s.report l).mh = s.mh := rfl
@[simp] theorem State.report_cu (l : List (TallyField × Nat)) : (s.report l).cu = s.cu := rfl
@[simp] theorem State.report_bos (l : List (TallyField × Nat)) : (s.report l).bos = s.bos := rfl
@[simp] theorem State.report_tm (l : List (TallyField × Nat)) : (s.report l).tm = s.tm := rfl
@[simp] theorem State.report_lu (l : List (TallyField × Nat)) : (s.report l).lu = s.lu := rfl
@[simp] theorem State.report_mg (l : List (TallyField × Nat)) : (s.report l).mg = s.mg := rfl
@[simp] theorem State.report_resetPin (l : List (TallyField × Nat)) : (s.report l).resetPin = s.resetPin := rfl
@[simp] theorem State.report_handed (l : List (TallyField × Nat)) : (s.report l).handed = s.handed := rfl
@[simp] theorem State.report_freeCount (l : List (TallyField × Nat)) : (s.report l).freeCount = s.freeCount := rfl
@[simp] theorem State.report_pending (l : List (TallyField × Nat)) : (s.report l).pending = s.pending := rfl

@[simp] theorem setSlot_settings (lug : LugSeq) (sl : Slot) : (setSlot s lug sl).settings = s.settings := rfl
@[simp] theorem setSlot_ct (lug : LugSeq) (sl : Slot) : (setSlot s lug sl).ct = s.ct := rfl
@[simp] theorem setSlot_sa (lug : LugSeq) (sl : Slot) : (setSlot s lug sl).sa = s.sa := rfl
@[simp] theorem setSlot_opt (lug : LugSeq) (sl : Slot) : (setSlot s lug sl).opt = s.opt := rfl
@[simp] theorem setSlot_mh (lug : LugSeq) (sl : Slot) : (setSlot s lug sl).mh = s.mh := rfl
@[simp] theorem setSlot_cu (lug : LugSeq) (sl : Slot) : (setSlot s lug sl).cu = s.cu := rfl
@[simp] theorem setSlot_bos (lug : LugSeq) (sl : Slot) : (setSlot s lug sl).bos = s.bos := rfl
@[simp] theorem setSlot_tu (lug : LugSeq) (sl : Slot) : (setSlot s lug sl).tu = s.tu := rfl
@[simp] theorem setSlot_tm (lug : LugSeq) (sl : Slot) : (setSlot s lug sl).tm = s.tm := rfl
@[simp] theorem setSlot_lu (lug : LugSeq) (sl : Slot) : (setSlot s lug sl).lu = s.lu := rfl
@[simp] theorem setSlot_mg (lug : LugSeq) (sl : Slot) : (setSlot s lug sl).mg = s.mg := rfl
@[simp] theorem setSlot_resetPin (lug : LugSeq) (sl : Slot) : (setSlot s lug sl).resetPin = s.resetPin := rfl
@[simp] theorem setSlot_handed (lug : LugSeq) (sl : Slot) : (setSlot s lug sl).handed = s.handed := rfl
@[simp] theorem setSlot_freeCount (lug : LugSeq) (sl : Slot) : (setSlot s lug sl).freeCount = s.freeCount := rfl
@[simp] theorem setSlot_pending (lug : LugSeq) (sl : Slot) : (setSlot s lug sl).pending = s.pending := rfl

@[simp] theorem updSlot_settings (lug : LugSeq) (f : Slot → Slot) : (updSlot s lug f).settings = s.settings := rfl
@[simp] theorem updSlot_ct (lug : LugSeq) (f : Slot → Slot) : (updSlot s lug f).ct = s.ct := rfl
@[simp] theorem updSlot_sa (lug : LugSeq) (f : Slot → Slot) : (updSlot s lug f).sa = s.sa := rfl
@[simp] theorem updSlot_opt (lug : LugSeq) (f : Slot → Slot) : (updSlot s lug f).opt = s.opt := rfl
@[simp] theorem updSlot_mh (lug : LugSeq) (f : Slot → Slot) : (updSlot s lug f).mh = s.mh := rfl
@[simp] theorem updSlot_cu (lug : LugSeq) (f : Slot → Slot) : (updSlot s lug f).cu = s.cu := rfl
@[simp] theorem updSlot_bos (lug : LugSeq) (f : Slot → Slot) : (updSlot s lug f).bos = s.bos := rfl
@[simp] theorem updSlot_tu (lug : LugSeq) (f : Slot → Slot) : (updSlot s lug f).tu = s.tu := rfl
@[simp] theorem updSlot_tm (lug : LugSeq) (f : Slot → Slot) : (updSlot s lug f).tm = s.tm := rfl
@[simp] theorem updSlot_lu (lug : LugSeq) (f : Slot → Slot) : (updSlot s lug f).lu = s.lu := rfl
@[simp] theorem updSlot_mg (lug : LugSeq) (f : Slot → Slot) : (updSlot s lug f).mg = s.mg := rfl
@[simp] theorem updSlot_resetPin (lug : LugSeq) (f : Slot → Slot) : (updSlot s lug f).resetPin = s.resetPin := rfl
@[simp] theorem updSlot_handed (lug : LugSeq) (f : Slot → Slot) : (updSlot s lug f).handed = s.handed := rfl
@[simp] theorem updSlot_freeCount (lug : LugSeq) (f : Slot → Slot) : (updSlot s lug f).freeCount = s.freeCount := rfl
@[simp] theorem updSlot_pending (lug : LugSeq) (f : Slot → Slot) : (updSlot s lug f).pending = s.pending := rfl

@[simp] theorem taken_next (f : State → State) (h : s.resetPin = false) : taken s f = .next (f s) := by
  simp [taken, h]

theorem taken_held (f : State → State) (h : s.resetPin = true) : taken s f = .next s := by simp [taken, h]

end Sys2Proof.Machine
end

