-- ==== Sys2Proof/Laws/Frames.lean ====
section
/-! SUPPORT. What each shared operation leaves unchanged: one frame lemma for each, over the blocks of the
state, up to the frame of the Link Unit's and Table Memory's operations that every meaning is built from. -/

namespace Sys2Proof.Machine

open Sys2Proof

variable {s t u : State} {L M N : List Block}

theorem unchangedBut.refl (L : List Block) (s : State) : unchangedBut L s s := fun b _ => by cases b <;> rfl

theorem unchangedBut.mono (h : unchangedBut L s t) (hl : L ⊆ N) : unchangedBut N s t :=
  fun b hb => h b fun hm => hb (hl hm)

theorem unchangedBut.trans (h₁ : unchangedBut N s t) (h₂ : unchangedBut N t u) : unchangedBut N s u :=
  fun b hb => by
    have e₁ := h₁ b hb
    have e₂ := h₂ b hb
    cases b <;> exact e₂.trans e₁

/-- One more operation after a state within a frame. -/
theorem unchangedBut.next (h₁ : unchangedBut N s t) (h₂ : unchangedBut L t u) (hl : L ⊆ N) : unchangedBut N s u :=
  h₁.trans (h₂.mono hl)

/-- A conditional operation. -/
theorem unchangedBut.ite {c : Prop} [Decidable c] (h₁ : unchangedBut N s t) (h₂ : unchangedBut N s u) :
    unchangedBut N s (if c then t else u) := by split <;> assumption

/-! ### Updates of one block -/

theorem updSettings_touches (s : State) (f : Settings → Settings) :
    unchangedBut [.settings] s (s.updSettings f) := by
  intro b hb; cases b <;> first | rfl | simp at hb

theorem updCt_touches (s : State) (f : Chain → Chain) : unchangedBut [.ct] s (s.updCt f) := by
  intro b hb; cases b <;> first | rfl | simp at hb

theorem updRing_touches (s : State) (f : Vector Slot 64 → Vector Slot 64) :
    unchangedBut [.ring] s (s.updRing f) := by
  intro b hb; cases b <;> first | rfl | simp at hb

theorem updSa_touches (s : State) (f : ScanAssembler → ScanAssembler) : unchangedBut [.sa] s (s.updSa f) := by
  intro b hb; cases b <;> first | rfl | simp at hb

theorem updOpt_touches (s : State) (f : Optimizer → Optimizer) : unchangedBut [.opt] s (s.updOpt f) := by
  intro b hb; cases b <;> first | rfl | simp at hb

theorem updMh_touches (s : State) (f : MarkCounts → MarkCounts) : unchangedBut [.mh] s (s.updMh f) := by
  intro b hb; cases b <;> first | rfl | simp at hb

theorem updCu_touches (s : State) (f : CommitUnit → CommitUnit) : unchangedBut [.cu] s (s.updCu f) := by
  intro b hb; cases b <;> first | rfl | simp at hb

theorem updBos_touches (s : State) (f : BinStore → BinStore) : unchangedBut [.bos] s (s.updBos f) := by
  intro b hb; cases b <;> first | rfl | simp at hb

theorem report_touches (s : State) (l : List (TallyField × Nat)) : unchangedBut [.tu] s (s.report l) := by
  intro b hb; cases b <;> first | rfl | simp at hb

theorem updTu_touches (s : State) (f : Tally → Tally) : unchangedBut [.tu] s (s.updTu f) := by
  intro b hb; cases b <;> first | rfl | simp at hb

theorem updTm_touches (s : State) (f : TableMemory → TableMemory) : unchangedBut [.tm] s (s.updTm f) := by
  intro b hb; cases b <;> first | rfl | simp at hb

theorem updLu_touches (s : State) (f : LinkUnit → LinkUnit) : unchangedBut [.lu] s (s.updLu f) := by
  intro b hb; cases b <;> first | rfl | simp at hb

theorem updMg_touches (s : State) (f : Management → Management) : unchangedBut [.mg] s (s.updMg f) := by
  intro b hb; cases b <;> first | rfl | simp at hb

theorem updHanded_touches (s : State) (f : HandedOver → HandedOver) :
    unchangedBut [.handed] s (s.updHanded f) := by
  intro b hb; cases b <;> first | rfl | simp at hb

theorem updSlot_touches (s : State) (lug : LugSeq) (f : Slot → Slot) :
    unchangedBut [.ring] s (updSlot s lug f) := updRing_touches s _

theorem setSlot_touches (s : State) (lug : LugSeq) (sl : Slot) : unchangedBut [.ring] s (setSlot s lug sl) :=
  updRing_touches s _

theorem updPort_touches (s : State) (p : Port) (f : PortState → PortState) :
    unchangedBut [.lu] s (updPort s p f) := updLu_touches s _

theorem popRx_touches (s : State) (q : QueueId) : unchangedBut [.lu] s (popRx s q) := updLu_touches s _

/-! ### The Link Unit -/

theorem startTx_touches (s : State) (p : Port) : unchangedBut [.lu, .freeCount] s (startTx s p) := by
  unfold startTx
  intro b hb
  dsimp only
  split
  · split
    · cases b <;> rfl
    · split <;> cases b <;> first | rfl | simp at hb
  · cases b <;> rfl

theorem enqueue_touches (s : State) (p : Port) (x : TxItem) :
    unchangedBut [.lu, .freeCount] s (enqueue s p x) :=
  ((updPort_touches s p _).mono (by decide)).trans (startTx_touches _ p)

theorem raiseAlert_touches (s : State) (k : AlertKind) : unchangedBut [.lu, .freeCount] s (raiseAlert s k) :=
  ((updLu_touches s _).mono (by decide)).ite (enqueue_touches s _ _)

theorem storeEvent_touches (s : State) (f : BinStore → BinStore) :
    unchangedBut [.bos, .lu, .freeCount] s (storeEvent s f) :=
  ((updBos_touches s f).mono (by decide)).ite
    (((updBos_touches s f).mono (by decide)).next (raiseAlert_touches _ _) (by decide))

theorem setErrCount_touches (s : State) (p : Port) (n : Nat) :
    unchangedBut [.lu, .freeCount] s (setErrCount s p n) :=
  ((updPort_touches s p _).mono (by decide)).ite
    (((updPort_touches s p _).mono (by decide)).next (raiseAlert_touches _ _) (by decide))

theorem malformedArrival_touches (s : State) (p : Port) :
    unchangedBut [.lu, .freeCount] s (malformedArrival s p) :=
  ((updPort_touches s p _).mono (by decide)).next (setErrCount_touches _ _ _) (by decide)

theorem handOverflow_touches (s : State) (q : QueueId) (p : Port) (f : Frame) :
    unchangedBut [.lu, .handed, .freeCount] s (handOverflow s q p f) := by
  cases q
  · exact (updHanded_touches _ _).mono (by decide)
  · exact (updHanded_touches _ _).mono (by decide)
  · exact (updHanded_touches _ _).mono (by decide)
  · exact ((updLu_touches s _).mono (by decide)).next (raiseAlert_touches _ _) (by decide)

theorem consume_touches (s : State) (q : QueueId) (p : Port) (f : Frame) :
    unchangedBut [.lu, .handed, .freeCount] s (consume s q p f) :=
  ((updLu_touches s _).mono (by decide)).ite
    (((updLu_touches s _).mono (by decide)).trans (handOverflow_touches _ q p f))

theorem filterFrame_touches (s : State) (p : Port) (f : Frame) :
    unchangedBut [.lu, .handed, .freeCount] s (filterFrame s p f) := by
  unfold filterFrame
  split
  · exact (enqueue_touches s _ _).mono (by decide)
  · dsimp only
    split
    · exact ((updLu_touches s _).mono (by decide)).trans (consume_touches _ _ _ _)
    · exact (((updLu_touches s _).mono (by decide)).trans (consume_touches _ _ _ _)).next
        (enqueue_touches _ _ _) (by decide)
    · exact ((updLu_touches s _).mono (by decide)).next (enqueue_touches _ _ _) (by decide)
    · exact (updLu_touches s _).mono (by decide)

theorem frameArrives_touches (s : State) (p : Port) (f : Frame) :
    unchangedBut [.lu, .handed, .freeCount] s (frameArrives s p f) := by
  unfold frameArrives
  split
  · exact (malformedArrival_touches s p).mono (by decide)
  · split
    · dsimp only
      split
      · exact (((updPort_touches s p _).mono (by decide)).next (setErrCount_touches _ p _) (by decide)).next
          (updPort_touches _ p _) (by decide)
      · exact (((updPort_touches s p _).mono (by decide)).next (setErrCount_touches _ p _) (by decide)).trans
          (filterFrame_touches _ p f)
    · exact ((updPort_touches s p _).mono (by decide)).next (setErrCount_touches _ _ _) (by decide)

theorem receive_touches (s : State) (p : Port) (sym : Symbol) :
    unchangedBut [.lu, .handed, .freeCount] s (receive s p sym) := by
  unfold receive
  split
  · exact unchangedBut.refl _ _
  · exact (updPort_touches s p _).mono (by decide)
  · exact ((updPort_touches s p _).mono (by decide)).next (malformedArrival_touches _ _) (by decide)
  · exact unchangedBut.refl _ _
  · exact ((updPort_touches s p _).mono (by decide)).next (malformedArrival_touches _ _) (by decide)
  · exact unchangedBut.refl _ _
  · unfold frameByte
    split
    · exact ((updPort_touches s p _).mono (by decide)).next (malformedArrival_touches _ _) (by decide)
    · split
      · exact ((updPort_touches s p _).mono (by decide)).next (frameArrives_touches _ _ _) (by decide)
      · exact (updPort_touches s p _).mono (by decide)

theorem comeUp_touches (s : State) (p : Port) (sym : Symbol) :
    unchangedBut [.lu, .handed, .freeCount] s (comeUp s p sym) :=
  ((((updPort_touches s p _).mono (by decide)).next (raiseAlert_touches _ _) (by decide)).next
    (startTx_touches _ _) (by decide)).trans (receive_touches _ _ _)

theorem symbolOn_touches (s : State) (p : Port) (sym : Symbol) :
    unchangedBut [.lu, .handed, .freeCount] s (symbolOn s p sym) :=
  (((updPort_touches s p _).mono (by decide)).trans (receive_touches _ _ _)).ite (comeUp_touches s p sym)

theorem linkExpires_touches (s : State) (p : Port) : unchangedBut [.lu, .freeCount] s (linkExpires s p) := by
  unfold linkExpires
  split
  · dsimp only
    have h : unchangedBut [.lu, .freeCount] s (raiseAlert (updPort s p fun ps =>
        { ps with link := .down, timer := false, rx := .none }) .port) :=
      ((updPort_touches s p _).mono (by decide)).trans (raiseAlert_touches _ _)
    split
    · exact h
    · exact h.trans (malformedArrival_touches _ _)
  · exact unchangedBut.refl _ _

/-! ### Table Memory -/

theorem noteRead_touches (s : State) (who : Requester) (i : Nat) :
    unchangedBut [.tm, .lu, .freeCount] s (noteRead s who i) := by
  unfold noteRead
  split
  · exact unchangedBut.refl _ _
  · exact (updTm_touches s _).mono (by decide)
  · exact ((updTm_touches s _).mono (by decide)).next (raiseAlert_touches _ _) (by decide)

theorem grant_touches (s : State) : unchangedBut [.tm] s (grant s) :=
  (updTm_touches s _).ite (unchangedBut.refl _ _)

theorem endAccess_touches (s : State) : unchangedBut [.tm] s (endAccess s) :=
  (updTm_touches s _).trans (grant_touches _)

theorem requestOpt_touches (s : State) (i : Nat) : unchangedBut [.tm] s (requestOpt s i) :=
  (updTm_touches s _).trans (grant_touches _)

theorem requestCommit_touches (s : State) (i : Nat) : unchangedBut [.tm] s (requestCommit s i) :=
  (updTm_touches s _).trans (grant_touches _)

theorem requestMgmt_touches (s : State) (i : Nat) (k : AccessKind) : unchangedBut [.tm] s (requestMgmt s i k) :=
  (updTm_touches s _).trans (grant_touches _)

/-! ### The Trim Optimizer -/

theorem askJobWord_touches (s : State) : unchangedBut [.opt, .tm] s (askJobWord s) := by
  unfold askJobWord
  split
  · exact unchangedBut.refl _ _
  · split
    · exact unchangedBut.refl _ _
    · split
      · exact unchangedBut.refl _ _
      · split
        · exact ((updOpt_touches s _).mono (by decide)).next (requestOpt_touches _ _) (by decide)
        · exact (updOpt_touches s _).mono (by decide)

theorem startJob_touches (s : State) : unchangedBut [.ring, .opt, .tm] s (startJob s) := by
  unfold startJob
  split
  · exact (((updOpt_touches s _).mono (by decide)).next (updSlot_touches _ _ _) (by decide)).next
      (askJobWord_touches _) (by decide)
  · exact unchangedBut.refl _ _

theorem offerFull_touches (s : State) (lug : LugSeq) : unchangedBut [.ring, .opt] s (offerFull s lug) := by
  unfold offerFull
  split
  · exact ((updSlot_touches s lug _).mono (by decide)).next (updOpt_touches _ _) (by decide)
  · exact (updOpt_touches s _).mono (by decide)
  all_goals exact unchangedBut.refl _ _

theorem joinQueue_touches (s : State) (lug : LugSeq) : unchangedBut [.ring, .opt] s (joinQueue s lug) := by
  unfold joinQueue
  dsimp only
  split
  · exact ((updOpt_touches s _).mono (by decide)).next (updSlot_touches _ lug _) (by decide)
  · exact (updOpt_touches s _).mono (by decide)

theorem judgeOffer_touches (s : State) (lug : LugSeq) : unchangedBut [.ring, .opt] s (judgeOffer s lug) := by
  unfold judgeOffer
  dsimp only
  split
  · exact unchangedBut.refl _ _
  · split
    · exact unchangedBut.refl _ _
    · split
      · exact unchangedBut.refl _ _
      · split
        · exact ((updSlot_touches s lug _).mono (by decide)).trans (offerFull_touches _ lug)
        · exact ((updSlot_touches s lug _).mono (by decide)).trans (joinQueue_touches _ lug)

theorem offerLug_touches (s : State) (lug : LugSeq) : unchangedBut [.ring, .opt, .tm] s (offerLug s lug) :=
  ((judgeOffer_touches s lug).mono (by decide)).trans (startJob_touches _)

theorem abandonJob_touches (s : State) : unchangedBut [.opt, .tm] s (abandonJob s) := by
  unfold abandonJob
  split
  · exact unchangedBut.refl _ _
  · exact (((updOpt_touches s _).mono (by decide)).next (updOpt_touches _ _) (by decide)).next
      (updTm_touches _ _) (by decide)

/-! ### Replies -/

theorem reply_touches (s : State) (p : Port) (f : Frame) (r : Result) (data : List Byte) :
    unchangedBut [.lu, .freeCount] s (reply s p f r data) := enqueue_touches s p _

theorem replyMark_touches (s : State) (p : Port) (f : Frame) (r : MarkReply) :
    unchangedBut [.mh, .tu, .lu, .freeCount] s (replyMark s p f r) :=
  (((enqueue_touches s p _).mono (by decide)).next (updMh_touches _ _) (by decide)).next
    (report_touches _ _) (by decide)

/-! ### Commitments -/

theorem freeBuffer_touches (s : State) (lug : LugSeq) : unchangedBut [.ring, .sa] s (freeBuffer s lug) := by
  unfold freeBuffer
  split
  · exact unchangedBut.refl _ _
  · exact ((updSlot_touches s _ _).mono (by decide)).next (updSa_touches _ _) (by decide)

theorem writeCommit_touches (s : State) (lug : LugSeq) (c : Committed) (d : Option Decision) (fl : CommitFlags) :
    unchangedBut [.ring, .tu, .lu, .freeCount] s (writeCommit s lug c d fl) :=
  (((updSlot_touches s lug _).mono (by decide)).next (enqueue_touches _ _ _) (by decide)).next
    (report_touches _ _) (by decide)

theorem askBins_touches : ∀ (l : List Nat) (s : State), unchangedBut [.bos, .lu, .freeCount] s (askBins s l).2
  | [], s => unchangedBut.refl _ s
  | n :: rest, s => by
    unfold askBins
    split
    · exact storeEvent_touches s _
    · exact askBins_touches rest s

end Sys2Proof.Machine
end

