-- ==== Sys2Proof/Laws/Stores.lean ====
section
/-! SUPPORT. Sparse stores, slots, bins and counters: a read after a write, and the canonical form kept. -/

namespace Sys2Proof.Machine

open Sys2Proof

section Sparse

variable {α : Type} [DecidableEq α] (d : α)

theorem sparseWfFrom_mono {lo hi : Nat} (h : lo ≤ hi) :
    ∀ {m : Sparse α}, sparseWfFrom d hi m = true → sparseWfFrom d lo m = true
  | [], _ => rfl
  | (k, v) :: m, w => by
    simp only [sparseWfFrom, Bool.and_eq_true, decide_eq_true_eq] at w ⊢
    exact ⟨⟨by omega, w.1.2⟩, w.2⟩

/-- A key below the bound of a canonical store is unlisted. -/
theorem sparseGet_below {a lo : Nat} (h : a < lo) :
    ∀ {m : Sparse α}, sparseWfFrom d lo m = true → sparseGet d m a = d
  | [], _ => rfl
  | (k, v) :: m, w => by
    simp only [sparseWfFrom, Bool.and_eq_true, decide_eq_true_eq] at w
    have hk : a ≠ k := by omega
    simp only [sparseGet, hk, if_false]
    exact sparseGet_below (lo := k + 1) (by omega) w.2

/-- The bound below every key of a store after a write. -/
theorem sparseSet_wfFrom (a : Nat) (x : α) :
    ∀ {m : Sparse α} {lo : Nat}, lo ≤ a → sparseWfFrom d lo m = true → sparseWfFrom d lo (sparseSet d m a x) = true
  | [], lo, ha, _ => by
    simp only [sparseSet]; split
    · rfl
    · simp_all [sparseWfFrom]
  | (k, v) :: m, lo, ha, w => by
    simp only [sparseWfFrom, Bool.and_eq_true, decide_eq_true_eq] at w
    simp only [sparseSet]
    split
    · split
      · simp_all [sparseWfFrom]
      · simp only [sparseWfFrom, Bool.and_eq_true, decide_eq_true_eq]
        exact ⟨⟨ha, by assumption⟩, ⟨by omega, w.1.2⟩, w.2⟩
    · split
      · split
        · exact sparseWfFrom_mono d (by omega) w.2
        · rename_i e _; subst e
          simp only [sparseWfFrom, Bool.and_eq_true, decide_eq_true_eq]
          exact ⟨⟨ha, by assumption⟩, w.2⟩
      · simp only [sparseWfFrom, Bool.and_eq_true, decide_eq_true_eq]
        exact ⟨w.1, sparseSet_wfFrom a x (by omega) w.2⟩

/-- A write keeps the canonical form. -/
theorem sparseSet_wf {m : Sparse α} (a : Nat) (x : α) (h : sparseWf d m = true) :
    sparseWf d (sparseSet d m a x) = true := sparseSet_wfFrom d a x (Nat.zero_le _) h

/-- A read of the written key gives the written value. -/
theorem sparseGet_set_same (a : Nat) (x : α) :
    ∀ {m : Sparse α} {lo : Nat}, sparseWfFrom d lo m = true → sparseGet d (sparseSet d m a x) a = x
  | [], _, _ => by
    simp only [sparseSet]; split <;> simp_all [sparseGet]
  | (k, v) :: m, lo, w => by
    simp only [sparseWfFrom, Bool.and_eq_true, decide_eq_true_eq] at w
    simp only [sparseSet]
    split
    · split
      · rename_i e; subst e
        exact sparseGet_below _ (lo := k) (by assumption)
          (m := (k, v) :: m) (by simp [sparseWfFrom, w.1.2, w.2])
      · simp [sparseGet]
    · split
      · split
        · rename_i e₁ e₂; subst e₁ e₂
          exact sparseGet_below _ (lo := a + 1) (by omega) w.2
        · simp [sparseGet]
      · rename_i h₁ h₂
        simp only [sparseGet, h₂, if_false]
        exact sparseGet_set_same a x w.2

/-- A read of any other key gives what it gave. -/
theorem sparseGet_set_other {a b : Nat} (x : α) (h : b ≠ a) :
    ∀ {m : Sparse α} {lo : Nat}, sparseWfFrom d lo m = true →
      sparseGet d (sparseSet d m a x) b = sparseGet d m b
  | [], _, _ => by
    simp only [sparseSet]; split <;> simp [sparseGet, h]
  | (k, v) :: m, lo, w => by
    simp only [sparseWfFrom, Bool.and_eq_true, decide_eq_true_eq] at w
    simp only [sparseSet]
    split
    · split <;> simp [sparseGet, h]
    · split
      · rename_i e; subst e
        split
        · have hk : b ≠ a := h
          simp [sparseGet, hk]
        · simp [sparseGet, h]
      · simp only [sparseGet]
        split
        · rfl
        · exact sparseGet_set_other x h w.2

theorem sparseGet_set {m : Sparse α} (w : sparseWf d m = true) (a b : Nat) (x : α) :
    sparseGet d (sparseSet d m a x) b = if b = a then x else sparseGet d m b := by
  by_cases h : b = a
  · subst h; simp [sparseGet_set_same d b x w]
  · simp [h, sparseGet_set_other d x h w]

end Sparse

/-! ### Table words -/

/-- A word stored reads back, and every other word reads as before. -/
theorem storedAt_storeWord {t : TableMemory} (w : sparseWf blankWord t.words = true) (i j : Nat) (x : StoredWord) :
    storedAt (storeWord t i x) j = if j = i then x else storedAt t j := sparseGet_set _ w i j x

theorem storeWord_wf {t : TableMemory} (w : sparseWf blankWord t.words = true) (i : Nat) (x : StoredWord) :
    sparseWf blankWord (storeWord t i x).words = true := sparseSet_wf _ i x w

/-- A word written whole checks Clean with its value (R135). -/
theorem checkWord_fresh (v : Word) : checkWord (freshWord v) = .clean v := by
  have h : popCount (freshWord v).changed = 0 := (by decide : popCount 0 = 0)
  simp only [checkWord, h]; rfl

/-! ### Slots -/

@[simp] theorem slotAt_setSlot_same (s : State) (lug : LugSeq) (sl : Slot) :
    slotAt (setSlot s lug sl) lug = sl := by simp [slotAt, setSlot, State.updRing]

theorem slotAt_setSlot_other (s : State) {lug l : LugSeq} (sl : Slot) (h : l.toNat % 64 ≠ lug.toNat % 64) :
    slotAt (setSlot s lug sl) l = slotAt s l := by
  simp only [slotAt, setSlot, State.updRing]
  exact Vector.getElem_set_ne _ _ (Ne.symm h)

@[simp] theorem slotAt_updSlot_same (s : State) (lug : LugSeq) (f : Slot → Slot) :
    slotAt (updSlot s lug f) lug = f (slotAt s lug) := slotAt_setSlot_same s lug _

theorem slotAt_updSlot_other (s : State) {lug l : LugSeq} (f : Slot → Slot) (h : l.toNat % 64 ≠ lug.toNat % 64) :
    slotAt (updSlot s lug f) l = slotAt s l := slotAt_setSlot_other s _ h

/-! ### Bins -/

theorem binAt_setBin (b : BinStore) (n m : Nat) (r : BinRecord) (h : n ≤ 47) :
    binAt (setBin b n r) m = if m = n then r else binAt b m := by
  simp only [binAt, setBin, Vector.getElem?_setIfInBounds]
  by_cases e : n = m
  · subst e; simp [show n < 48 by omega]
  · simp [e, Ne.symm e]

/-! ### Counters -/

theorem satInc_toNat (x : Word) : (satInc x).toNat = min 65535 (x.toNat + 1) := by
  unfold satInc
  split
  · subst_vars; decide
  · have := x.isLt
    have h : x.toNat ≠ 65535 := fun e => by
      rename_i hx; exact hx (BitVec.eq_of_toNat_eq (by simpa using e))
    rw [BitVec.toNat_add]; simp; omega

end Sys2Proof.Machine
end

