-- ==== Sys2Proof/Laws/Slots.lean ====
section
/-! SUPPORT. What the shared operations of the handlers do, once each: slots written twice, slots across queued
frames and bin events, the free list, the optimizer's queue, the head cache, ports, and frames read back. -/

namespace Sys2Proof.Machine

open Sys2Proof

/-! ### Slots -/

theorem setSlot_self (s : State) (lug : LugSeq) : setSlot s lug (slotAt s lug) = s := by
  simp [setSlot, slotAt, State.updRing]

theorem setSlot_setSlot (s : State) (lug : LugSeq) (x y : Slot) :
    setSlot (setSlot s lug x) lug y = setSlot s lug y := by simp [setSlot, State.updRing]

theorem updSlot_updSlot (s : State) (lug : LugSeq) (f g : Slot → Slot) :
    updSlot (updSlot s lug f) lug g = updSlot s lug fun sl => g (f sl) := by
  rw [updSlot, slotAt_updSlot_same, updSlot, setSlot_setSlot]; rfl

/-- A command that leaves the ring leaves every slot. -/
theorem slotAt_of_ring {s t : State} (h : t.ring = s.ring) (lug : LugSeq) : slotAt t lug = slotAt s lug := by
  simp [slotAt, h]

theorem slotAt_enqueue (s : State) (p : Port) (x : TxItem) (lug : LugSeq) :
    slotAt (enqueue s p x) lug = slotAt s lug := slotAt_of_ring (enqueue_touches s p x .ring (by decide)) lug

theorem slotAt_raiseAlert (s : State) (k : AlertKind) (lug : LugSeq) :
    slotAt (raiseAlert s k) lug = slotAt s lug := slotAt_of_ring (raiseAlert_touches s k .ring (by decide)) lug

theorem slotAt_storeEvent (s : State) (f : BinStore → BinStore) (lug : LugSeq) :
    slotAt (storeEvent s f) lug = slotAt s lug := slotAt_of_ring (storeEvent_touches s f .ring (by decide)) lug

/-- R28: a slot's buffer, if it holds one, joins the tail of the free list. -/
theorem freeBuffer_eq (s : State) (lug : LugSeq) :
    freeBuffer s lug = { setSlot s lug { slotAt s lug with buffer := .none } with
      sa := { s.sa with freeList := s.sa.freeList ++ (slotAt s lug).buffer.toList } } := by
  unfold freeBuffer
  cases h : (slotAt s lug).buffer with
  | none =>
    have e : ({ slotAt s lug with buffer := .none } : Slot) = slotAt s lug := by rw [← h]
    simp only [Option.toList_none, List.append_nil]
    rw [e, setSlot_self]
  | some b => rfl

/-! ### The head cache -/

theorem headAt_fin (c : HeadCache) (h : Fin 8) : headAt c h.val = c.heads[h] := by
  unfold headAt; simp

/-! ### The optimizer -/

/-- R48: no job starts while one runs or while the queue is empty. -/
theorem startJob_idle {s : State} (h : s.opt.job ≠ .none ∨ s.opt.queue = []) : startJob s = s := by
  unfold startJob
  split
  · rename_i h1 h2; rw [h1, h2] at h; simp at h
  · rfl

/-- R44: where a lug joins the queue. -/
theorem insertByAge_split (off : LugSeq → Nat) (lug : LugSeq) : ∀ q, ∃ older younger, q = older ++ younger
    ∧ (∀ x ∈ older, off lug ≤ off x) ∧ (∀ x ∈ younger.head?, off x < off lug)
    ∧ insertByAge off lug q = older ++ lug :: younger
  | [] => ⟨[], [], rfl, by simp, by simp, rfl⟩
  | x :: q => by
    by_cases h : off x < off lug
    · exact ⟨[], x :: q, rfl, by simp, by simpa using h, by simp [insertByAge, h]⟩
    · obtain ⟨older, younger, h1, h2, h3, h4⟩ := insertByAge_split off lug q
      refine ⟨x :: older, younger, by rw [h1]; rfl, fun z hz => ?_, h3, by simp [insertByAge, h, h4]⟩
      rcases List.mem_cons.1 hz with rfl | hz
      · omega
      · exact h2 z hz

theorem isJobLug_iff (s : State) (lug : LugSeq) : isJobLug s lug = true ↔ ∃ j ∈ s.opt.job, j.lug = lug := by
  unfold isJobLug; cases h : s.opt.job <;> simp [Option.any]

/-! ### Bins -/

/-- R90: the bins asked, in order, up to the first that is open. -/
theorem askBins_eq (s : State) : ∀ l : List Nat,
    askBins s l = match l.find? (fun n => binOpen n (binAt s.bos n)) with
      | .some n => (.some n, storeEvent s fun b => reserveIn b n)
      | .none => (.none, s)
  | [] => rfl
  | x :: l => by
    unfold askBins
    rw [List.find?_cons]
    by_cases h : binOpen x (binAt s.bos x) = true
    · rw [if_pos h, h]
    · rw [if_neg h, askBins_eq s l]; simp [h]

/-- A bin event leaves the store as its change does, whatever alert it raises. -/
theorem storeEvent_bos (s : State) (f : BinStore → BinStore) : (storeEvent s f).bos = f s.bos := by
  unfold storeEvent
  dsimp only
  split
  · rfl
  · exact raiseAlert_touches (s.updBos f) .bin .bos (by decide)

/-! ### Ports and frames -/

theorem portOf_updPort (s : State) (p : Port) (f : PortState → PortState) :
    portOf (updPort s p f).lu p = f (portOf s.lu p) := by cases p <;> rfl

theorem updPort_updPort (s : State) (p : Port) (f g : PortState → PortState) :
    updPort (updPort s p f) p g = updPort s p fun q => g (f q) := by cases p <;> rfl

/-- R168: the oldest frame of a priority leaves the queue, the others keep their order. -/
theorem takeOldest_split (n : Nat) (before after : List TxItem) (x : TxItem) (h : ∀ y ∈ before, y.prio ≠ n)
    (hx : x.prio = n) : takeOldest n (before ++ x :: after) = .some (x, before ++ after) := by
  induction before with
  | nil => simp [takeOldest, hx]
  | cons y l ih =>
    simp only [List.cons_append, takeOldest]
    rw [if_neg (h y (by simp)), ih fun z hz => h z (by simp [hz])]; rfl

theorem takeOldest_none (n : Nat) (q : List TxItem) (h : ∀ y ∈ q, y.prio ≠ n) : takeOldest n q = .none := by
  induction q with
  | nil => rfl
  | cons y l ih =>
    simp only [takeOldest]
    rw [if_neg (h y (by simp)), ih fun z hz => h z (by simp [hz])]; rfl

/-- Two bytes of a word, the high one first, make the word. -/
theorem be16_word (w : Word) : (w.extractLsb' 8 8 ++ w.extractLsb' 0 8 : BitVec 16) = w := by
  apply BitVec.eq_of_toNat_eq
  rw [BitVec.toNat_append, BitVec.extractLsb'_toNat, BitVec.extractLsb'_toNat]
  have := w.isLt
  rw [← Nat.shiftLeft_add_eq_or_of_lt (by omega), Nat.shiftLeft_eq, Nat.shiftRight_eq_div_pow]; omega

/-- R156: the bytes of a frame, as they stand on the link, read back as the frame. -/
theorem parseFrame_bytes (f : Frame) (h : f.body.length ≤ 240) :
    parseFrame ([f.b0, f.b1, f.b2] ++ be16 f.tag ++ [byte f.body.length] ++ f.body ++ be16 f.check) = f := by
  have hn : num8 ([f.b0, f.b1, f.b2] ++ be16 f.tag ++ [byte f.body.length] ++ f.body ++ be16 f.check) 5
      = f.body.length := by
    simp only [num8, byteAt, be16]
    simp [byte]; omega
  unfold parseFrame
  rw [hn]
  rcases f with ⟨b0, b1, b2, t, bd, c⟩
  have ht : be16 t = [t.extractLsb' 8 8, t.extractLsb' 0 8] := rfl
  simp only [Frame.mk.injEq]
  refine ⟨rfl, rfl, rfl, be16_word t, ?_, ?_⟩
  · simp [be16]
  · have h' : ∀ k, byteAt ([b0, b1, b2] ++ be16 t ++ [byte bd.length] ++ bd ++ be16 c) (6 + bd.length + k)
        = byteAt (be16 c) k := by
      intro k
      simp only [byteAt]
      rw [List.getD_append_right]
      · congr 1; simp [ht]; omega
      · simp [ht]; omega
    have h0 := h' 0
    unfold word16
    rw [show 6 + bd.length = 6 + bd.length + 0 from rfl, h0, show 6 + bd.length + 0 + 1 = 6 + bd.length + 1 from rfl,
      h' 1]
    exact be16_word c

/-! ### After power-on -/

/-- The table words of the reset state are in canonical form. -/
theorem reset_words_wf : sparseWf blankWord State.reset.tm.words = true := by decide

end Sys2Proof.Machine
end

