-- ==== Sys2Proof/Tests/Slice0.lean ====
section
/-! SUPPORT. The model's own tests. First what single commands do, with expected results from the spec's worked
cases and tables; then, for every statement with hypotheses, states and operands that meet them, clause by clause at
the ends of its ranges. -/

open Sys2Proof Sys2Proof.Machine

set_option Elab.async false

namespace Sys2Proof.Tests

/-! ### Small states -/

/-- The part after its sweep: mode STOP, no lug seen. -/
def base : State := { State.reset with ct := { State.reset.ct with starting := false } }

/-- A head cache whose eight heads are lead and participate, cover zones 0 to 7 and map every code to class 3. -/
def allHeads : HeadCache :=
  { heads := Vector.replicate 8
      { participating := true, lead := true, mirrored := false, firstZone := 0, lastZone := 7,
        classMap := Vector.replicate 64 3 }
    thresholds := [48, 112, 176, 240, 304, 368, 432] }

/-- A line in RUN with set 0 active and mapped to page 0, `slot` as lug 0, and the oldest map buffer held. -/
def line (slot : Slot) : State :=
  setSlot
    { base with
      ct := { base.ct with mode := .run }
      sa := { base.sa with cache := allHeads, freeList := List.range' 1 23 }
      tm := { base.tm with
        active := .some .s0, map0 := Vector.replicate 10 (.some { page := 0, readOnly := false }) } }
    0 slot

/-- A RUN-origin slot with no board. -/
def unopened : Slot := { Slot.empty 0 with origin := .run }

/-- A RUN-origin slot whose board is being scanned. -/
def opened : Slot :=
  { unopened with board := .present, scan := .some .opened, len := 264, expected := 1, buffer := .some 0 }

/-- The same slot with its scan complete. -/
def scanned : Slot := { opened with scan := .some .complete, closed := 1 }

/-- A PIECE decision of board positions 0 and 2, final grade 1, bins 3 and 4, made at revision 0. -/
def piece : PieceData :=
  { i := 0, j := 2, grade := 1, final := 1, product := 1, value := 900, chosen := .some 3, alternate := .some 4 }

/-- The decision that holds it. -/
def decision : Decision :=
  { body := .piece piece, wc := 0, set := .some .s0, quick := false, partialFlag := false, revision := 0 }

/-- The scanned slot, decided. -/
def decided : Slot := { scanned with optState := .decided, decision := .some decision }

/-- A frame of a class with a body, tagged with a lug, from station 5 to the own address. -/
def frame (cls : Nat) (tag : LugSeq) (body : List Byte) : Frame := makeFrame cls 5 20 tag body

/-- A scanner frame waits at SA. -/
def scanning (s : State) (f : Frame) : State := { s with lu := { s.lu with scanQ := [(.U, f)] } }

/-- A mark waits at MH. -/
def marking (s : State) (f : Frame) : State := { s with lu := { s.lu with markQ := [(.U, f)] } }

/-- A sorter notice waits. -/
def noticing (s : State) (f : Frame) : State := { s with lu := { s.lu with sorterQ := [(.D, f)] } }

/-- A request waits at MG, with its code, id 0 and arguments. -/
def request (code : Byte) (args : List Byte) : Frame := frame 32 0 ([code, 0, 0] ++ args)

/-- That request in the MGMT queue. -/
def asking (s : State) (code : Byte) (args : List Byte) : State :=
  { s with lu := { s.lu with mgmtQ := [(.U, request code args)] } }

/-- The command answers a next state with a property. -/
def leaves (c : Instr) (s : State) (p : State → Bool) : Bool :=
  match exec c s with
  | .next t => p t
  | .fault _ => false
  | .refused _ => false

/-! ### Well-formedness and decoding -/

theorem test_body_of_240_is_well_formed :
    (Instr.frameArrival .U { frame 1 0 [] with body := List.replicate 240 0 }).wellFormed = true := by decide +kernel

theorem test_body_of_241_is_refused :
    (Instr.frameArrival .U { frame 1 0 [] with body := List.replicate 241 0 }).wellFormed = false := by decide +kernel

theorem test_no_word_spells_a_command : decodeTableWord 32 0xFFFFFFFF = .none := by decide

theorem test_no_word_changes_the_queue : State.reset.withFetchWord 8 1 = State.reset := rfl

/-! ### Single commands -/

/-- R156: the check of the nine bytes "123456789" with register all ones and generator 1021 (hex) is 29B1. -/
theorem test_check_of_nine_digits :
    crc [0x31, 0x32, 0x33, 0x34, 0x35, 0x36, 0x37, 0x38, 0x39] = 0x29B1 := by decide +kernel

/-- A line in RUN at sequence 1000, the step count at c. -/
def atCount (c : Nat) : State := { base with ct := { base.ct with seq := 1000, c := c, mode := .run } }

/-- Table 1-2: an index at 240 is accepted without a slip, one at 150 is spurious, one at 231 is a slip. -/
theorem test_index_events_of_table_1_2 :
    leaves .lugIndex (atCount 240) (fun t => t.ct.seq = 1001 ∧ t.ct.c = 0 ∧ t.ct.slip = 0)
      ∧ leaves .lugIndex (atCount 150) (fun t => t.ct.seq = 1000 ∧ t.ct.c = 150 ∧ t.ct.spurious = 1)
      ∧ leaves .lugIndex (atCount 231) (fun t => t.ct.seq = 1001 ∧ t.ct.slip = 1) := by decide +kernel

/-- Table 1-2: the count that reaches 252 is a missing index, and the advance is synthesized. -/
theorem test_count_to_252_is_missing :
    leaves .encoderCount (atCount 251) (fun t => t.ct.seq = 1001 ∧ t.ct.c = 0 ∧ t.ct.missing = 1) := by
  decide +kernel

/-- Head 2 of section 2.5's worked example: zones 3 to 5, mirrored, raw 12 to class 6, 33 to 11, 5 to 2. -/
def head2 : HeadEntry :=
  { participating := true, lead := false, mirrored := true, firstZone := 3, lastZone := 5,
    classMap := (((Vector.replicate 64 0#4).set 12 6).set 33 11).set 5 2 }

/-- The board of lug 3000 of that example, class 4 at (3, 100) and class 9 at (4, 102) in its map. -/
def board3000 : State :=
  setSlot
    { base with
      ct := { base.ct with seq := 3000, mode := .run }
      sa := { base.sa with
        cache := { allHeads with heads := allHeads.heads.set 2 head2 }
        buffers := base.sa.buffers.set 0 [(3 * 264 + 100, 4), (4 * 264 + 102, 9)]
        freeList := List.range' 1 23 } }
    3000 { opened with seq := 3000 }

/-- Table 2-4: the cells after the PROFILE, and its two excess cells. -/
theorem test_profile_of_table_2_4 :
    leaves .profile
      (scanning board3000
        (frame 2 3000 ([2, 2, 4, 0, 100, 0, 103] ++ [0, 0, 0, 0, 12, 0, 0, 33, 0, 12, 12, 0, 5, 5])))
      (fun t => t.sa.counts.excessCells = 2
        ∧ t.sa.buffers[0] = [(3 * 264 + 100, 11), (3 * 264 + 103, 6), (4 * 264 + 101, 6), (4 * 264 + 102, 9)]
        ∧ (t.sa.cursors[2]).map (·.position) = .some .none) := by decide +kernel

/-- The words of Tables 3-6 and 3-7, laid out by Table 11-8. -/
def wordsOf36 : List (Nat × Word) :=
  [(256, 0x800C), (259, 0x0100), (265, 0x0020), (288, 0x8000), (291, 0x0400), (293, 0x0400), (320, 0x8000),
   (323, 0xFF00), (325, 0x0C00), (998, 410), (1000, 540), (1002, 680), (1003, 520), (1004, 800), (1018, 300),
   (1020, 390), (1022, 500), (1024, 590)]
    ++ (List.range' 2032 10).map (fun k => (k, 0x0C00#16)) ++ (List.range' 2042 10).map fun k => (k, 0x0E00#16)

/-- The map of the worked case: class 5 at zone 2, stations 40 to 42, class 9 at zone 6, stations 170 to 185. -/
def cellsOf36 : Sparse (BitVec 4) :=
  (List.range' (2 * 264 + 40) 3).map (fun k => (k, 5#4))
    ++ (List.range' (6 * 264 + 170) 16).map fun k => (k, 9#4)

/-- The job of the worked case, with a cap, cuts and a mode. -/
def jobOf36 (cap : Option Nat) (cuts : List Nat) (quick : Bool) (exhausted : List Nat) : Job :=
  { lug := 0, set := .s0, revision := 0, cap := cap, cuts := cuts, partialFlag := false, quick := quick
    snapshot := { openBins := List.range 48, exhausted := exhausted }
    len := 200, wc := 3, cells := cellsOf36, words := wordsOf36, asked := .none, uncorrectable := false }

/-- Section 3.5's worked case: saws 0 and 6 for a 12 ft piece of grade 1 at 680, and at 590 with 245 exhausted. -/
theorem test_worked_case_of_grading :
    (decisionOf (jobOf36 .none [] false []) 200 3 cellsOf36).body = .piece
        { i := 0, j := 6, grade := 1, final := 1, product := 245, value := 680, chosen := .some 12,
          alternate := .some 0 }
      ∧ (decisionOf (jobOf36 .none [] false [245]) 200 3 cellsOf36).body = .piece
        { i := 0, j := 7, grade := 2, final := 2, product := 256, value := 590, chosen := .some 14,
          alternate := .some 0 } := by decide +kernel

/-- The same case with a cap of 2 and a cut at 150: saws 0 and 5 at 390, product 254. -/
theorem test_worked_case_with_cap_and_cut :
    (decisionOf (jobOf36 (.some 2) [150] false []) 200 3 cellsOf36).body = .piece
      { i := 0, j := 5, grade := 2, final := 2, product := 254, value := 390, chosen := .some 14,
        alternate := .some 0 } := by decide +kernel

theorem test_grade_mark_sets_the_cap :
    leaves .gradeMark (marking (line scanned) (frame 8 0 [1, 0, 2]))
      (fun t => (slotAt t 0).cap = .some 2 ∧ (slotAt t 0).revision = 1 ∧ t.mh.acceptedGrade = 1) := by
  decide +kernel

theorem test_reject_mark_decides_at_once :
    leaves .rejectMark (marking (line opened) (frame 8 0 [3, 0, 0]))
      (fun t => (slotAt t 0).reject ∧ (slotAt t 0).optState = .decided
        ∧ ((slotAt t 0).decision.map (·.body)) = .some .reject) := by decide +kernel

/-- R90: with bins 3 and 4 full (capacity 0), a piece is committed to bin 0. -/
theorem test_lock_commits_to_the_catch_bin :
    leaves .lockArrival { line decided with handed := { base.handed with locks := [0] } }
      (fun t => (slotAt t 0).committed
          = .some { kind := .piece, saws := .some (0, 2), bin := .some 0, product := .some 1 }
        ∧ (binAt t.bos 0).reserved = 1 ∧ t.sa.freeList = List.range' 1 23 ++ [0]) := by decide +kernel

/-- The decided slot committed to bin 0. -/
def committed : Slot :=
  { decided with
    buffer := .none
    committed := .some { kind := .piece, saws := .some (0, 2), bin := .some 0, product := .some 1 } }

theorem test_sort_fills_the_bin_and_empties_the_slot :
    leaves .sortArrival { line committed with handed := { base.handed with sorts := [0] } }
      (fun t => (binAt t.bos 0).fill = 1 ∧ slotAt t 0 = Slot.empty 0) := by decide +kernel

/-- R123: the cause counted is the one written at lock, though the deadline has since written PARTIAL (R38). -/
theorem test_sort_counts_the_cause_of_the_lock :
    leaves .sortArrival
      { line { scanned with
          cause := .some .partialScan
          committed := .some { kind := .recycle, saws := .none, bin := .none, product := .none,
                               cause := .some .lateDecision } } with
        handed := { base.handed with sorts := [0] } }
      (fun t => t.tu.current.count (.cause .lateDecision) = 1 ∧ t.tu.current.count (.cause .partialScan) = 0) := by
  decide +kernel

theorem test_switch_point_sets_saws_0_and_2 :
    leaves .sawSwitchPoint { line committed with handed := { base.handed with switches := [0] } }
      (fun t => t.cu.saws = .some (0, 2) ∧ t.cu.source = .some 0) := by decide +kernel

theorem test_bin_service_takes_bin_47_out :
    leaves .binService (noticing base (frame 21 0 [47, 1])) (fun t => (binAt t.bos 47).outOfService) := by
  decide +kernel

/-- R114, R115: quota of the last product. -/
theorem test_quota_set_of_product_639 :
    leaves .quotaSet (asking base 11 [2, 0x7F, 1, 0, 9]) (fun t => quotaAt t.bos 639 = .some 9) := by
  decide +kernel

theorem test_bin_write_then_bin_read :
    leaves .binWrite (asking base 9 [47, 0x0F, 0xFF]) (fun t => (binAt t.bos 47).capacity = 4095) := by
  decide +kernel

/-- R14: RUN with no active set is refused, and the mode stands. -/
theorem test_run_needs_an_active_set :
    leaves .mode (asking base 6 [2]) (fun t => t.ct.mode = .stop ∧ t.lu.mgmtQ = []) := by decide +kernel

theorem test_geometry_write_names_tol :
    leaves .geometryWrite
      (asking base 7 [0, 2, 0, 0, 0, 20, 0, 0, 0, 0, 0, 0, 0, 0, 0, 0, 0, 0, 0, 0])
      (fun t => t.settings = { Settings.defaults with tol := 20 }) := by decide +kernel

/-- R157: the first symbol makes a DOWN port UP. -/
theorem test_symbol_makes_the_port_up :
    leaves (.linkUp .U .idle) base (fun t => t.lu.u.link = .up ∧ t.lu.u.timer) := by decide +kernel

/-- R160, Table 9-5: a scanner frame on U is consumed into SCAN by entry F0, a mark into MARK by entry F1. -/
theorem test_default_filters_consume_scanner_frames_and_marks :
    leaves (.frameArrival .U (frame 1 7 [0])) base
        (fun t => t.lu.scanQ = [(.U, frame 1 7 [0])] ∧ t.lu.filters[0].hits = 1)
      ∧ leaves (.frameArrival .U (frame 8 7 [1, 0, 1])) base
        (fun t => t.lu.markQ = [(.U, frame 8 7 [1, 0, 1])] ∧ t.lu.d.tx = []) := by decide +kernel

/-- R158: a frame whose check fails adds 8 to the error count. -/
theorem test_bad_check_adds_8 :
    leaves (.frameArrival .D { frame 1 7 [0] with check := 0 }) base
      (fun t => t.lu.d.errCount = 8 ∧ t.lu.d.bad = 1 ∧ t.lu.scanQ = []) := by decide +kernel

theorem test_sweep_ends_starting :
    leaves .sweepComplete State.reset (fun t => t.ct.starting = false ∧ t.tm.scrubTimer = .some 100) := by
  decide +kernel

theorem test_soft_reset_keeps_the_settings :
    leaves .softReset (asking { line opened with settings := { Settings.defaults with tol := 20 } } 17 [])
      (fun t => t.settings.tol = 20 ∧ t.ct.mode = .stop ∧ t.tm.active = .some .s0 ∧ slotAt t 0 = Slot.empty 0) := by
  decide +kernel

theorem test_held_reset_raises_the_saws :
    leaves .resetAssert { base with cu := { base.cu with saws := .some (0, 2) } }
      (fun t => t.cu.saws = .none ∧ t.resetPin) := by decide +kernel

theorem test_tally_close_moves_the_period :
    leaves .tallyClose (asking base 14 [0, 0, 0])
      (fun t => t.tu.current.number = 1 ∧ (t.tu.closed.map (·.period.number)) = .some 0) := by decide +kernel

/-- R141: a visit to a word with one changed bit writes it back Clean. -/
theorem test_scrub_repairs_one_changed_bit :
    leaves .scrubVisit
      { base with tm := { base.tm with
          words := [(0, { written := 5, changed := 1 })]
          access := .some { who := .scrubber, index := 0, kind := .scrub, wanted := true } } }
      (fun t => storedAt t.tm 0 = { written := 5, changed := 0 } ∧ t.tm.scrubPos = 1 ∧ t.tm.corrected = 1) := by
  decide +kernel

/-- R148: a byte write replaces the high byte alone. -/
theorem test_byte_write_merges_the_high_half :
    leaves .byteWriteAccess
      { base with
        mg := { base.mg with exec := .some {
          port := .U, frame := request 3 [], work := .writeByte 0 .high [0xAB] 0 } }
        tm := { base.tm with
          words := [(0, { written := 0x1234, changed := 0 })]
          access := .some { who := .management, index := 0, kind := .writeByte .high 0xAB, wanted := true } } }
      (fun t => storedAt t.tm 0 = { written := 0xAB34, changed := 0 } ∧ t.mg.exec = .none) := by decide +kernel

/-! ### Witnesses: the whole machine and the invariants -/

theorem witness_StepRunsTheFrontCommand :
    ({ base with pending := [.lugIndex] } : State).pending = .lugIndex :: [] ∧ base.pending = [] := by decide

theorem witness_HeldResetTakesNoEvents :
    ({ base with resetPin := true } : State).resetPin = true ∧ Instr.encoderCount ≠ .powerOn
      ∧ Instr.encoderCount ≠ .resetRelease := by decide

/-- STARTING with a count; a MODE request that makes RUN of STOP; a SOFT-RESET that makes STOP of RUN. -/
theorem witness_ModeChangesOnlyByRequestOrReset :
    (State.reset.ct.starting = true ∧ State.reset.ct.mode = .stop ∧ Instr.encoderCount ≠ .sweepComplete
        ∧ leaves .encoderCount State.reset fun _ => true)
      ∧ leaves .mode (asking { line opened with ct := base.ct } 6 [2]) (fun t => t.ct.mode = .run)
      ∧ leaves .softReset (asking (line opened) 17 []) (fun t => t.ct.mode ≠ .run) := by decide +kernel

theorem witness_WordsChangeOnlyByWriteAccesses :
    Instr.lugIndex ∉ [Instr.tableWriteAccess, .byteWriteAccess, .scrubVisit, .sweepComplete, .resetAssert]
      ∧ leaves .lugIndex (line opened) fun _ => true := by decide +kernel

/-- Quotas 0 and 65535 present, one absent, and a lock that takes one of product 1. -/
def stocked : State :=
  { line decided with
    bos := { base.bos with quota := [(0, .some 0), (1, .some 65535)] }
    handed := { base.handed with locks := [0] } }

theorem witness_QuotaIsNeverReturned :
    sparseWf .none stocked.bos.quota = true ∧ quotaAt stocked.bos 2 = .none ∧ quotaAt stocked.bos 0 = .some 0
      ∧ leaves .lockArrival stocked (fun t => quotaAt t.bos 1 = .some 65534)
      ∧ Instr.lockArrival ≠ .quotaSet ∧ Instr.lockArrival ≠ .powerOn
      ∧ Instr.sortArrival ≠ .lockArrival ∧ Instr.sortArrival ≠ .commitCompletion := by decide +kernel

/-- A line with a board being scanned and a count waiting: every invariant below holds of it. -/
def busy : State := { line opened with pending := [.encoderCount] }

theorem busy_steps : (match step busy with | .next t => t.ct.c == 1 | _ => false) = true := by decide +kernel

theorem witness_StepKeepsStoresCanonical : StoresCanonical busy := by unfold StoresCanonical; decide +kernel

theorem witness_StepKeepsSettingsSound : SettingsSound busy := by dsimp only [SettingsSound]; decide +kernel

theorem witness_StepKeepsQueuesBounded : QueuesBounded busy :=
  ⟨fun q => by cases q <;> decide +kernel, by decide +kernel⟩

theorem witness_StepKeepsRingAligned : RingAligned busy := by unfold RingAligned; decide +kernel

theorem witness_StepKeepsBinLoadsWithinCapacity : BinsSound busy := by unfold BinsSound; decide +kernel

theorem witness_StepKeepsMapBuffersApart : BuffersApart busy := by unfold BuffersApart; decide +kernel

theorem witness_StepKeepsOneAlertOfEachKind : AlertsSingle busy :=
  ⟨fun k => by cases k <;> decide +kernel, fun x h => by
    rw [show busy.lu.d.tx = [] by decide +kernel] at h; cases h⟩

theorem witness_StepKeepsErrorBands : ErrorBands busy :=
  ⟨⟨by decide +kernel, (by decide +kernel : busy.lu.u.errCount < 96)⟩,
    ⟨by decide +kernel, (by decide +kernel : busy.lu.d.errCount < 96)⟩⟩

theorem witness_StepKeepsHandlersOrdered : HandlersOrdered busy := by unfold HandlersOrdered; decide +kernel

theorem witness_StepKeepsPagesInUse :
    WritesGuarded busy ∧ busy.pending.head? ≠ .some .sweepComplete ∧ sparseWf blankWord busy.tm.words = true
      ∧ pageInUse busy (255 / 256) = true ∧ popCount (storedAt busy.tm 255).changed ≤ 2 := by
  refine ⟨⟨fun _ => by decide +kernel, ?_, ?_⟩, by decide +kernel, by decide +kernel, by decide +kernel,
    by decide +kernel⟩
  · exact ⟨fun _ h => (nomatch h), fun _ h => (nomatch h), fun h => absurd rfl h⟩
  · exact ⟨fun _ h => (nomatch h), fun _ h => (nomatch h), fun _ h => (nomatch h)⟩

/-! ### Witnesses: the chain -/

/-- Counts to 252, 251, and 200 = P − lead. -/
theorem witness_CountEventsCountOrSynthesizeTheAdvance :
    (atCount 251).resetPin = false
      ∧ (atCount 251).settings.countsPerStep + (atCount 251).settings.tol ≤ (atCount 251).ct.c + 1
      ∧ (atCount 250).ct.c + 1 < (atCount 250).settings.countsPerStep + (atCount 250).settings.tol
      ∧ 0 < (atCount 199).settings.lead
      ∧ (atCount 199).ct.c + 1 + (atCount 199).settings.lead = (atCount 199).settings.countsPerStep
      ∧ (atCount 199).ct.switchHanded = false := by decide +kernel

/-- Indexes at 227, 228 and 252, 234 and 246, and a count that finds 253. -/
theorem witness_LugIndexIsSpuriousOrAdvances :
    (atCount 227).resetPin = false ∧ 227 + 12 < 240
      ∧ ((atCount 227).ct.c + (atCount 227).settings.tol < (atCount 227).settings.countsPerStep)
      ∧ ((atCount 228).settings.countsPerStep ≤ (atCount 228).ct.c + (atCount 228).settings.tol
        ∧ ((atCount 228).settings.tol : Int) < 2 * |((atCount 228).ct.c : Int) - (atCount 228).settings.countsPerStep|)
      ∧ ((atCount 234).settings.countsPerStep ≤ (atCount 234).ct.c + (atCount 234).settings.tol
        ∧ 2 * |((atCount 234).ct.c : Int) - (atCount 234).settings.countsPerStep| ≤ (atCount 234).settings.tol)
      ∧ (atCount 253).settings.countsPerStep + (atCount 253).settings.tol < (atCount 253).ct.c := by decide +kernel

theorem witness_AdvanceBringsTheNextLug :
    (base.ct.starting = true → base.ct.mode = .stop)
      ∧ (State.reset.ct.starting = true → State.reset.ct.mode = .stop) := by decide

/-! ### Witnesses: scan assembly -/

/-- The line with lug 0 not yet opened, its map buffer free. -/
def ready (sl : Slot) : State := { line sl with sa := { (line sl).sa with freeList := List.range 24 } }

/-- A BOARD-OPEN for a lug, by a head. -/
def openFrame (tag : LugSeq) (head : Byte) : Frame := frame 1 tag [head, 0, 200, 0, 48]

theorem witness_BoardOpenRefusals :
    ScanWaiting (scanning (ready unopened) (frame 1 0 [0, 0, 0, 0])) .U (frame 1 0 [0, 0, 0, 0]) [] 1 0
      ∧ (frame 1 0 [0, 0, 0, 0]).body.length < 5
      ∧ (∀ tag : LugSeq, ∀ h : Byte,
        ScanWaiting (scanning (ready unopened) (openFrame tag h)) .U (openFrame tag h) [] 1 0
          ∧ 5 ≤ (openFrame tag h).body.length)
      ∧ (ready unopened).settings.dScanwin < offset (ready unopened) 65534
      ∧ offset (ready unopened) 65535 ≤ (ready unopened).settings.dScanwin
      ∧ (slotAt (ready (Slot.empty 0)) 0).origin ≠ .run
      ∧ (slotAt (ready opened) 0).origin = .run ∧ (slotAt (ready opened) 0).board ≠ .none
      ∧ (slotAt (ready unopened) 0).board = .none
      ∧ (¬ ∃ h : Fin 8, num8 (openFrame 0 8).body 0 = h.val ∧ (ready unopened).sa.cache.heads[h].lead = true)
      ∧ (∃ h : Fin 8, num8 (openFrame 0 7).body 0 = h.val ∧ (ready unopened).sa.cache.heads[h].lead = true)
      ∧ ({ ready unopened with sa := { (ready unopened).sa with freeList := [] } } : State).sa.freeList = [] := by
  refine ⟨by unfold ScanWaiting; decide +kernel, by decide +kernel, fun t h => ⟨⟨rfl, rfl, rfl, Nat.zero_le _⟩, Nat.le_refl 5⟩,
    ?_⟩
  decide +kernel

/-- Head 7 opens lug 65535 at offset 1, with heads expected and, with the head not participating, with none. -/
theorem witness_BoardOpenAccepted :
    let s := scanning { ready unopened with ct := { (ready unopened).ct with seq := 1 } } (openFrame 0 7)
    let lone : HeadCache :=
      { HeadCache.empty with heads := HeadCache.empty.heads.set 7 { HeadEntry.empty with lead := true } }
    (s.resetPin = false ∧ s.lu.scanQ = [(.U, openFrame 0 7)] ∧ frameClass (openFrame 0 7) = 1
        ∧ 5 ≤ (openFrame 0 7).body.length)
      ∧ offset s 0 ≤ s.settings.dScanwin ∧ (slotAt s 0).origin = .run ∧ (slotAt s 0).board = .none
      ∧ num8 (openFrame 0 7).body 0 = 7 ∧ s.sa.cache.heads[7].lead = true
      ∧ s.sa.freeList = 0 :: List.range' 1 23 ∧ participatingHeads s.sa.cache ≠ 0
      ∧ lone.heads[7].lead = true ∧ participatingHeads lone = 0 := by decide +kernel

/-- Short bodies, offsets 40 and 41, head 8, an empty slot; then windows at their ends, cursors absent, of another
tag and of the frame's. -/
theorem witness_ScannerFramesAreAdmittedAndFillWindows :
    (∀ x ∈ [(Instr.profile, 2, 7), (.profileCont, 3, 1), (.boardClose, 4, 1)],
      x ∈ [(Instr.profile, 2, 7), (Instr.profileCont, 3, 1), (Instr.boardClose, 4, 1)])
      ∧ (∀ cls ∈ [2, 3, 4], ∀ body : List Byte,
        ScanWaiting (scanning (line opened) (frame cls 0 body)) .U (frame cls 0 body) [] cls 0)
      ∧ ([] : List Byte).length < 1
      ∧ offset (line opened) 65495 = 41 ∧ (line opened).settings.dSort < 41
      ∧ offset (line opened) 65496 ≤ (line opened).settings.dSort
      ∧ (¬ ∃ h : Fin 8, 8 = h.val ∧ (line opened).sa.cache.heads[h].participating = true)
      ∧ (∃ h : Fin 8, 7 = h.val ∧ (line opened).sa.cache.heads[h].participating = true)
      ∧ (slotAt (line unopened) 0).board ≠ .present ∧ (slotAt (line opened) 0).board = .present
      ∧ (slotAt (line scanned) 0).scan ≠ .some .opened ∧ (slotAt (line opened) 0).scan = .some .opened
      ∧ (∀ w ∈ [(0, 8, 0, 0), (1, 0, 0, 0), (0, 0, 1, 0), (0, 0, 0, 264)],
        w.2.1 < w.1 ∨ 7 < w.2.1 ∨ w.2.2.2 < w.2.2.1 ∨ 263 < w.2.2.2)
      ∧ (∀ w ∈ [(0, 7, 0, 263), (7, 7, 263, 263)],
        ¬ (w.2.1 < w.1 ∨ 7 < w.2.1 ∨ w.2.2.2 < w.2.2.1 ∨ 263 < w.2.2.2))
      ∧ (∀ c ∈ (line opened).sa.cursors[7], c.tag ≠ 0)
      ∧ (∃ c ∈ (board3000.sa.cursors.set 2 (.some
          { tag := 3000, z1 := 0, z2 := 7, s1 := 0, s2 := 263, mirrored := true, position := .none }))[2],
        c.tag = 3000)
      ∧ (slotAt board3000 3000).buffer = .some 0 ∧ (slotAt (line unopened) 0).buffer = .none := by
  refine ⟨by decide, ?_, by decide +kernel⟩
  intro cls h body
  fin_cases h <;> exact ⟨rfl, rfl, rfl, Nat.zero_le _⟩

theorem witness_EachCellGoesToTheCursorsPlace :
    sparseWf 0 [(3 * 264 + 100, 4#4), (4 * 264 + 102, 9#4)] = true := by decide

/-- A BOARD-CLOSE late, a duplicate, one of two expected heads, and the last; a deadline of an OPEN scan. -/
theorem witness_ScansEndAtTheLastCloseOrTheDeadline :
    ScanWaiting (scanning (line opened) (frame 4 0 [0])) .U (frame 4 0 [0]) [] 4 1
      ∧ num8 (frame 4 0 [0]).body 0 = 0 ∧ offset (line opened) 0 ≤ (line opened).settings.dSort
      ∧ (line opened).sa.cache.heads[0].participating = true ∧ (slotAt (line opened) 0).board = .present
      ∧ scanned.scan ≠ .some .opened ∧ opened.scan = .some .opened
      ∧ ({ opened with closed := 1 } : Slot).closed.getLsbD 0 = true ∧ opened.closed.getLsbD 0 = false
      ∧ (∃ k : Fin 8, (0x81#8).getLsbD k = true ∧ (opened.closed ||| (1#8 <<< 0)).getLsbD k = false)
      ∧ (∀ k : Fin 8, opened.expected.getLsbD k = true → (opened.closed ||| (1#8 <<< 0)).getLsbD k = true)
      ∧ ({ line opened with handed := { base.handed with deadlines := [0] } } : State).handed.deadlines = [0] := by
  unfold ScanWaiting; decide +kernel

theorem witness_ScanOverflowMarksEveryOpenScan :
    let s : State := { line opened with handed := { base.handed with scanOverflows := 1 } }
    s.resetPin = false ∧ s.handed.scanOverflows = 0 + 1 := by decide

/-! ### Witnesses: the optimizer -/

/-- The line whose optimizer queue holds the given lugs, with no job. -/
def queued (sl : Slot) (q : List LugSeq) : State := { line sl with opt := { base.opt with queue := q } }

/-- The job of lug 0 as latched from the slot `scanned`. -/
def running (words : List (Nat × Word)) : Job := { jobOf36 .none [] false [] with words := words }

/-- Every word of L1 to L9, those of the worked case as section 3.5 gives them and every other 0. -/
def wholeOf36 : List (Nat × Word) := wordsOf36 ++ (List.range 2500).map fun k => (k, 0)

/-- The line while that job runs. -/
def jobbing (sl : Slot) (j : Job) (q : List LugSeq) : State :=
  { line sl with opt := { base.opt with job := .some j, queue := q } }

/-- Offers turned away at offset 12, of an empty slot, of the job's lug and of a DECIDED slot; to a full queue; and
to one of 15. -/
theorem witness_OffersAreJudgedInOrder :
    (line scanned).resetPin = false ∧ (line scanned).opt.queue = []
      ∧ ((line scanned).settings.dLock ≤ offset (line scanned) 65524
        ∧ offset (line scanned) 65525 < (line scanned).settings.dLock)
      ∧ (slotAt (line unopened) 0).board ≠ .present ∧ (slotAt (line (Slot.empty 0)) 0).origin ≠ .run
      ∧ (∃ j ∈ (jobbing scanned (running []) []).opt.job, j.lug = 0) ∧ (slotAt (line decided) 0).optState = .decided
      ∧ ((line scanned).opt.job = .none ∧ 0 ∉ (line scanned).opt.queue)
      ∧ (List.replicate 16 (1 : LugSeq)).length ≥ 16 ∧ (List.replicate 15 (1 : LugSeq)).length < 16
      ∧ (slotAt (line scanned) 0).optState = .none
      ∧ ({ decided with optState := .fault } : Slot).decision.isSome := by decide +kernel

theorem witness_JobStartLatchesTheHeadOfTheQueue :
    (jobbing scanned (running []) []).opt.job ≠ .none ∧ (line scanned).opt.queue = []
      ∧ (queued scanned [0, 65535]).opt.job = .none ∧ (queued scanned [0, 65535]).opt.queue = 0 :: [65535]
      ∧ (queued scanned [0, 65535]).tm.active = .some .s0 := by decide +kernel

/-- A read for a job that was abandoned, one corrected and one uncorrectable; a job with words left and with none. -/
theorem witness_JobReadsEachWordOnce :
    let access (wanted : Bool) : Access := { who := .optimizer, index := 0, kind := .read, wanted := wanted }
    let at0 (j : Job) (changed : BitVec 22) : State :=
      { jobbing scanned j [] with
        tm := { (line scanned).tm with access := .some (access true), words := [(0, { written := 1, changed := changed })] } }
    (access false).wanted = false ∧ (access true).wanted = true
      ∧ (at0 { running [] with asked := .some 256 } 1).tm.access = .some (access true)
      ∧ checkAt (at0 (running []) 1) 0 = .single 1 ∧ checkAt (at0 (running []) 3) 0 = .double
      ∧ jobNext (running []) = .some 256
      ∧ entryOf (line scanned).tm .s0 (256 / 256) = .some { page := 0, readOnly := false }
      ∧ jobNext (running ((List.range 2500).map fun k => (k, 0))) = .none
      ∧ jobNext (running wholeOf36) = .none
      ∧ computedGrade wordsOf36 cellsOf36 0 6 = .some 1 := by decide +kernel

/-- Offsets 12 and 11; a revision that differs, over a REJECT decision, another and none; marks that do not differ,
after an uncorrectable word and after none; the job of the worked case has every word it needs. -/
theorem witness_JobCompletionOutcomes :
    let j : Job := { running [] with uncorrectable := true }
    let late : State := { jobbing scanned j [] with ct := { (line scanned).ct with seq := 12 } }
    let early : State := { jobbing scanned j [] with ct := { (line scanned).ct with seq := 11 } }
    late.resetPin = false ∧ late.opt.job = .some j ∧ j.asked = .none ∧ j.uncorrectable = true
      ∧ ¬ offset late j.lug < late.settings.dLock ∧ offset early j.lug < early.settings.dLock
      ∧ ({ scanned with revision := 1 } : Slot).revision ≠ j.revision
      ∧ (∀ d ∈ ({ decided with decision := .some { decision with body := .reject } } : Slot).decision, d.body = .reject)
      ∧ (∀ d ∈ decided.decision, d.body ≠ .reject) ∧ scanned.decision = .none
      ∧ ¬ (scanned.revision ≠ j.revision ∨ scanned.reject = true ∨ scanned.cap ≠ j.cap ∨ scanned.cuts ≠ j.cuts)
      ∧ (running wholeOf36).uncorrectable = false ∧ jobNext (running wholeOf36) = .none := by
  decide +kernel

theorem witness_OptimizerLockWithdrawsOrAbandons :
    let locks (s : State) : State := { s with handed := { base.handed with optLocks := [0] } }
    (locks base).resetPin = false ∧ (locks base).handed.optLocks = 0 :: []
      ∧ 0 ∈ (locks (jobbing scanned { running [] with lug := 1 } [0])).opt.queue
      ∧ (0 ∉ (locks (jobbing scanned (running []) [])).opt.queue
        ∧ ∃ j ∈ (locks (jobbing scanned (running []) [])).opt.job, j.lug = 0)
      ∧ 0 ∉ (locks base).opt.queue ∧ ¬ ∃ j ∈ (locks base).opt.job, j.lug = 0 := by decide +kernel

theorem witness_ComputedGradeIsTheFirstRowPassed :
    sparseWf 0 cellsOf36 = true ∧ (∀ x ∈ cellsOf36, x.1 < 2112)
      ∧ computedGrade wordsOf36 cellsOf36 0 6 = .some 1 ∧ computedGrade wordsOf36 cellsOf36 9 10 = .some 1
      ∧ computedGrade [] cellsOf36 0 10 = .none := by decide +kernel

/-! ### Witnesses: marks -/

/-- Marks at offsets 41, 40 and 12, at 11 for an empty slot, then bad arguments 0, 9 and 264, and a full cut list. -/
theorem witness_MarksRefusedChangeNoSlot :
    (∀ body ∈ [[1, 0, 0], [1, 0, 9], [2, 1, 8], [0, 0, 0], [5, 0, 0], [2, 0, 1]],
      MarkWaiting (marking (line scanned) (frame 8 0 body)) .U (frame 8 0 body) [])
      ∧ num8 (frame 8 0 [1, 0, 0]).body 0 = 1 ∧ num8 (frame 8 0 [5, 0, 0]).body 0 = 5
      ∧ ¬ offset base 65495 ≤ base.settings.dSort ∧ offset base 65496 ≤ base.settings.dSort
      ∧ base.settings.dLock ≤ offset base 65524 ∧ offset base 65525 < base.settings.dLock
      ∧ (slotAt base 0).board ≠ .present
      ∧ ((slotAt (line scanned) 0).board = .present ∧ (slotAt (line scanned) 0).origin = .run)
      ∧ num16 (frame 8 0 [1, 0, 9]).body 1 = 9 ∧ num16 (frame 8 0 [2, 1, 8]).body 1 = 264
      ∧ num16 (frame 8 0 [2, 0, 1]).body 1 = 1 ∧ 4 ≤ ({ scanned with cuts := [1, 2, 3, 4] } : Slot).cuts.length := by
  unfold MarkWaiting; decide +kernel

/-- GRADE 1 and 8, CUT 263 into a list of three, at offset 11. -/
theorem witness_GradeAndCutMarksAccepted :
    let s : State := { line scanned with ct := { (line scanned).ct with seq := 11 } }
    (∀ body ∈ [[1, 0, 1], [1, 0, 8], [2, 1, 7]], MarkWaiting (marking s (frame 8 0 body)) .U (frame 8 0 body) [])
      ∧ offset s 0 ≤ s.settings.dSort ∧ offset s 0 < s.settings.dLock
      ∧ (slotAt s 0).board = .present ∧ (slotAt s 0).origin = .run
      ∧ num16 (frame 8 0 [1, 0, 1]).body 1 = 1 ∧ num16 (frame 8 0 [1, 0, 8]).body 1 = 8
      ∧ num16 (frame 8 0 [2, 1, 7]).body 1 = 263 ∧ ({ scanned with cuts := [1, 2, 3] } : Slot).cuts.length < 4 := by
  unfold MarkWaiting; decide +kernel

theorem witness_RejectMarksAccepted :
    let s := marking { line scanned with ct := { (line scanned).ct with seq := 11 } } (frame 8 0 [3, 0, 0])
    MarkWaiting s .U (frame 8 0 [3, 0, 0]) [] ∧ offset s 0 ≤ s.settings.dSort ∧ offset s 0 < s.settings.dLock
      ∧ (slotAt s 0).board = .present ∧ (slotAt s 0).origin = .run ∧ num8 (frame 8 0 [3, 0, 0]).body 0 = 3 := by
  unfold MarkWaiting; decide +kernel

theorem witness_ClearMarksAccepted :
    let s := marking { line scanned with ct := { (line scanned).ct with seq := 11 } } (frame 8 0 [4, 0, 0])
    MarkWaiting s .U (frame 8 0 [4, 0, 0]) [] ∧ offset s 0 ≤ s.settings.dSort ∧ offset s 0 < s.settings.dLock
      ∧ (slotAt s 0).board = .present ∧ (slotAt s 0).origin = .run ∧ num8 (frame 8 0 [4, 0, 0]).body 0 = 4
      ∧ (slotAt s 0).scan ≠ .none := by
  unfold MarkWaiting; decide +kernel

theorem witness_ShortAndDroppedMarks :
    let s := marking base (frame 8 0 [1, 0])
    let t : State := { base with handed := { base.handed with markOverflows := [(.U, frame 8 0 [1, 0, 1])] } }
    (s.resetPin = false ∧ s.lu.markQ = [(.U, frame 8 0 [1, 0])] ∧ frameClass (frame 8 0 [1, 0]) = 8
        ∧ (frame 8 0 [1, 0]).body.length < 3)
      ∧ t.resetPin = false ∧ t.handed.markOverflows = (.U, frame 8 0 [1, 0, 1]) :: []
      ∧ 3 ≤ (frame 8 0 [1, 0, 1]).body.length := by decide +kernel

/-! ### Witnesses: commitment, saws and sorting -/

/-- The lock of lug 0 handed over. -/
def locking (s : State) : State := { s with handed := { base.handed with locks := [0] } }

/-- A commit of lug 65535 in flight, or none. -/
def flying (lug : LugSeq) : InFlight := { lug := lug, decision := decision }

/-- Held; STOP; BYPASS and RUN in BYPASS; no board; UNSCANNED; rejected; the causes; CULL; a stale piece in conflict
at stations 12 and 59, without one at 11 and 60, with a cap of 1 and of 2. -/
theorem witness_LockArrivalCommitsByTheFirstCase :
    let held : State := { locking (line scanned) with cu := { base.cu with inFlight := .some (flying 65535) } }
    let conflict (x : Nat) : Prop := 12 + 24 * piece.i ≤ x ∧ x < 12 + 24 * piece.j
    (locking (line scanned)).resetPin = false ∧ (locking (line scanned)).handed.locks = 0 :: []
      ∧ held.cu.inFlight ≠ .none ∧ (locking (line scanned)).cu.inFlight = .none
      ∧ (Slot.empty 0).origin = .stop ∧ ({ Slot.empty 0 with origin := .bypass } : Slot).origin = .bypass
      ∧ (scanned.origin = .run ∧ (line scanned).ct.mode ≠ .bypass ∧ scanned.board = .present)
      ∧ unopened.board = .none ∧ ({ unopened with board := .unscanned } : Slot).board = .unscanned
      ∧ ({ scanned with reject := true } : Slot).reject = true ∧ scanned.reject = false ∧ scanned.decision = .none
      ∧ scanned.optState = .none
      ∧ (let x : Slot := { scanned with optState := .skipped, cause := .some .skipped }
         x.optState = .skipped ∧ x.cause = .some .skipped)
      ∧ decided.decision = .some decision ∧ ({ decision with body := .cull } : Decision).body = .cull
      ∧ decision.body = .piece piece
      ∧ (decided.optState = .decided ∧ decision.revision = decided.revision)
      ∧ ¬ (({ decided with optState := .stale } : Slot).optState = .decided ∧ decision.revision = decided.revision)
      ∧ conflict 12 ∧ conflict 59 ∧ ¬ conflict 11 ∧ ¬ conflict 60
      ∧ (∀ c ∈ (.some 1 : Option Nat), c ≤ piece.final) ∧ piece.final < 2
      ∧ (line scanned).tm.active = .some .s0
      ∧ entryOf (line scanned).tm .s0 ((1792 + (((decision.wc * 8) + (2 - 1)) * 10 + (piece.j - piece.i - 1))) / 256)
        = .some { page := 0, readOnly := false } := by decide +kernel

/-- A commit's read in progress, its word with the given changed bits. -/
def committing (changed : BitVec 22) (wanted : Bool) : State :=
  { line decided with
    cu := { base.cu with inFlight := .some (flying 0) }
    tm := { (line decided).tm with
      words := [(8191, { written := 0x2F30, changed := changed })]
      access := .some { who := .commit, index := 8191, kind := .read, wanted := wanted } } }

theorem witness_CommitCompletionTakesTheBinsRead :
    (base.cu.inFlight = .none ∧ base.cu.heldSwitch = .none ∧ base.resetPin = false
        ∧ leaves .lockArrival { base with handed := { base.handed with locks := 0 :: base.handed.locks } }
          fun _ => true)
      ∧ (committing 0 true).cu.inFlight ≠ .none ∧ (committing 0 true).resetPin = false
      ∧ (∃ a ∈ (committing 0 true).tm.access, a.who = .commit ∧ a.wanted = true)
      ∧ (∃ a ∈ (committing 0 false).tm.access, a.who = .commit ∧ a.wanted = false)
      ∧ (committing 0 true).cu.inFlight = .some (flying 0) ∧ (flying 0).decision.body = .piece piece
      ∧ checkAt (committing 0 true) 8191 = .clean 0x2F30 ∧ checkAt (committing 1 true) 8191 = .single 0x2F30
      ∧ checkAt (committing 3 true) 8191 = .double := by decide +kernel

/-- Of the first half each kind of commitment with the decision it carries; of the second a piece. -/
theorem witness_PieceCommitmentsReserveAndTakeQuota :
    decision.body = .piece piece ∧ ({ decision with body := .cull } : Decision).body = .cull
      ∧ ({ decision with body := .reject } : Decision).body = .reject
      ∧ ∀ k : CommitKind, ∃ c : Committed, c.kind = k :=
  ⟨rfl, rfl, rfl, fun k => ⟨{ kind := k, saws := .none, bin := .none, product := .none }, rfl⟩⟩

theorem witness_SwitchPointsSetTheSaws :
    let switching (s : State) : State := { s with handed := { base.handed with switches := [0] } }
    let s := switching (line committed)
    s.resetPin = false ∧ s.handed.switches = 0 :: []
      ∧ (∃ fl ∈ (switching { line decided with cu := { base.cu with inFlight := .some (flying 0) } }).cu.inFlight, fl.lug = 0)
      ∧ ¬ (∃ fl ∈ s.cu.inFlight, fl.lug = 0) ∧ (slotAt s 0).committed.isSome
      ∧ (slotAt (switching (line decided)) 0).committed = .none := by decide +kernel

/-- A LIVE slot; RECYCLE; bins 0 and 47 in service and bin 47 out of service. -/
theorem witness_SortDeliversAndRetires :
    let sorting (sl : Slot) : State := { line sl with handed := { base.handed with sorts := [0] } }
    let c (k : CommitKind) (b : Option Nat) : Committed :=
      { kind := k, saws := .none, bin := b, product := .none, cause := if k = .recycle then .some .fault else .none }
    (sorting scanned).resetPin = false ∧ (sorting scanned).handed.sorts = 0 :: []
      ∧ (slotAt (sorting scanned) 0).committed = .none
      ∧ (slotAt (sorting { scanned with committed := .some (c .recycle .none) }) 0).committed = .some (c .recycle .none)
      ∧ (slotAt (sorting { scanned with committed := .some (c .cull (.some 0)) }) 0).committed = .some (c .cull (.some 0))
      ∧ (c .cull (.some 0)).kind ≠ .recycle ∧ (c .bypass (.some 47)).bin = .some 47
      ∧ (binAt (sorting scanned).bos 47).outOfService = false
      ∧ (binAt (setBin base.bos 47 { binAt base.bos 47 with outOfService := true }) 47).outOfService = true := by
  decide +kernel

/-! ### Witnesses: sorter notices -/

/-- Bin 1 of capacity 2 with a fill. -/
def filled (n : Nat) : State :=
  { base with bos := setBin base.bos 1 { capacity := 2, fill := n, reserved := 0, outOfService := false } }

theorem witness_SorterNoticesSetTheirBin :
    (1 ∉ fullSet (filled 1).bos ∧ 1 ∈ fullSet (filled 2).bos)
      ∧ (∀ x ∈ [(20, []), (20, [48]), (20, [47]), (21, [1]), (21, [48, 0]), (21, [0, 1]), (21, [47, 0]), (21, [1, 2])],
      (noticing base (frame x.1 0 x.2)).resetPin = false
        ∧ (noticing base (frame x.1 0 x.2)).lu.sorterQ = [(.D, frame x.1 0 x.2)]
        ∧ frameClass (frame x.1 0 x.2) = x.1)
      ∧ num8 (frame 20 0 [48]).body 0 = 48 ∧ num8 (frame 20 0 [47]).body 0 = 47
      ∧ num8 (frame 21 0 [1, 2]).body 1 = 2 ∧ (frame 21 0 [1]).body.length < 2 := by decide +kernel

/-! ### Witnesses: links -/

/-- A body of the full 240 bytes; a check that agrees and one that fails, a FAILED port, a frame no entry matches
(class 63), and one that F0 alone matches. -/
theorem witness_CompleteFramesAreCheckedAndFiltered :
    let f := frame 63 0 (List.replicate 8 0)
    let full : Frame := { f with body := List.replicate 240 0 }
    let failed : State := updPort base .U fun q => { q with errState := .failed, errCount := 255 }
    full.body.length ≤ 240 ∧ base.resetPin = false
      ∧ f.check = crc ([f.b0, f.b1, f.b2] ++ be16 f.tag ++ [byte f.body.length] ++ f.body)
      ∧ f.check ≠ crc ([f.b0, f.b1, f.b2] ++ be16 (f.tag + 1) ++ [byte f.body.length] ++ f.body)
      ∧ (portOf failed.lu .U).errState = .failed ∧ (portOf base.lu .U).errState ≠ .failed
      ∧ (∀ k : Fin 16, ¬ (base.lu.filters[k].enabled = true
        ∧ f.b0.extractLsb' 0 6 &&& base.lu.filters[k].classMask
          = base.lu.filters[k].classMatch &&& base.lu.filters[k].classMask))
      ∧ (base.lu.filters[0].enabled = true ∧ base.lu.filters[0].dest ≠ .own ∧ base.lu.filters[0].port = .u
        ∧ (frame 7 0 []).b0.extractLsb' 0 6 &&& base.lu.filters[0].classMask
          = base.lu.filters[0].classMatch &&& base.lu.filters[0].classMask
        ∧ (frame 7 0 []).b1.extractLsb' 0 5 &&& base.lu.filters[0].originMask
          = base.lu.filters[0].originMatch &&& base.lu.filters[0].originMask) := by decide +kernel

theorem witness_BadFramesMoveTheErrorState :
    let q (cls : Nat) : List (Port × Frame) := [(.D, frame cls 0 [])]
    let s : State := { base with lu := { base.lu with scanQ := q 5, markQ := q 1, mgmtQ := q 8, sorterQ := q 22 } }
    s.resetPin = false ∧ s.mg.exec = .none ∧ s.ct.starting = false
      ∧ s.lu.scanQ = (.D, frame 5 0 []) :: [] ∧ frameClass (frame 5 0 []) ∉ [1, 2, 3, 4]
      ∧ frameClass (frame 1 0 []) ≠ 8 ∧ frameClass (frame 8 0 []) ≠ 32
      ∧ frameClass (frame 22 0 []) ∉ [20, 21] := by decide +kernel

/-- A DOWN port; an UP port outside a frame, after 4, 5 and 7 bytes, with lengths 240 and 241. -/
theorem witness_SymbolsDriveTheLinkAndTheReceiver :
    let up (rx : Option (List Byte)) : State := updPort base .U fun q => { q with link := .up, rx := rx }
    let f := frame 1 0 []
    base.resetPin = false ∧ (portOf base.lu .U).link = .down ∧ (portOf (up .none).lu .U).link = .up
      ∧ (portOf (up .none).lu .U).rx = .none
      ∧ (portOf (up (.some [1, 2, 3, 4])).lu .U).rx = .some [1, 2, 3, 4] ∧ [1, 2, 3, 4].length < 5
      ∧ ([1, 2, 3, 4, 5] : List Byte).length = 5 ∧ 240 < (241 : Byte).toNat ∧ (240 : Byte).toNat ≤ 240
      ∧ (6 ≤ ([1, 2, 3, 4, 5, 0] : List Byte).length ∧ ([1, 2, 3, 4, 5, 0] : List Byte).length + 1
        < 8 + (([1, 2, 3, 4, 5, 0] : List Byte).getD 5 0).toNat)
      ∧ ∃ b ∈ f.check.extractLsb' 0 8 :: [], [f.b0, f.b1, f.b2] ++ be16 f.tag ++ [0] ++ [f.check.extractLsb' 8 8] ++ [b]
        = [f.b0, f.b1, f.b2] ++ be16 f.tag ++ [byte f.body.length] ++ f.body ++ be16 f.check := by decide +kernel

/-- Queues of 7 and 8, newcomers of priority 0 and 3; an UP port that sends, with the oldest of priority 1 second. -/
theorem witness_TransmissionsFollowPriorityAndAge :
    let x (n : Fin 4) : TxItem := .frame n (frame 9 0 [])
    let q (n : Nat) : PortState := { PortState.atReset with tx := List.replicate n (x 3) }
    let s := updPort base .D fun q => { q with
      link := .up, sending := .some (frame 9 0 []), tx := [x 3, x 1, .alert .chain 255] }
    (q 7).tx.length < 8 ∧ 8 ≤ (q 8).tx.length ∧ (∃ y ∈ (q 8).tx, (x 0).prio < y.prio)
      ∧ (∀ y ∈ (q 8).tx, y.prio ≤ (x 3).prio)
      ∧ s.resetPin = false ∧ (portOf s.lu .D).sending ≠ .none ∧ (portOf s.lu .D).link = .up
      ∧ (portOf s.lu .D).tx = [x 3] ++ x 1 :: [.alert .chain 255] ∧ (∀ y ∈ [x 3], (x 1).prio < y.prio)
      ∧ (∀ y ∈ [TxItem.alert .chain 255], (x 1).prio ≤ y.prio) ∧ (q 0).tx = [] ∧ (q 0).link = .down
      ∧ (joinTx (q 0) (x 3)).link = .down
      ∧ (let up := joinTx { q 0 with link := .up } (.alert .ecc 1)
         up.link = .up ∧ up.sending = .none ∧ up.tx = [] ++ .alert .ecc 1 :: []) := by
  decide +kernel

theorem witness_AlertsMergeWhileOneWaits :
    let s := updPort base .D fun q => { q with tx := [.alert .chain 255] }
    AlertsSingle s ∧ (∀ n, .alert .bin n ∉ s.lu.d.tx) ∧ s.lu.d.tx = [] ++ .alert .chain 255 :: [] := by
  refine ⟨⟨fun k => by cases k <;> decide +kernel, fun x hx k n e => ?_⟩, fun n h => ?_, rfl⟩
  · rcases List.mem_singleton.1 hx with rfl
    cases e; decide
  · cases List.mem_singleton.1 h

/-! ### Witnesses: table memory -/

/-- Set 1 and 2, logical page 9 and 10, counts 1, 117 and 118, an unmapped, a protected, a used and a free page. -/
theorem witness_TableRequestsAreCheckedThenBegin :
    let bad (limit : Nat) (args : List Byte) : Prop := 1 < num8 args 0 ∨ 9 < num8 args 1 ∨ num8 args 3 < 1
      ∨ limit < num8 args 3 ∨ 256 < num8 args 2 + num8 args 3
    (∀ x ∈ [(1, [1, 9, 139, 117]), (2, [0, 0, 0, 1, 0, 7]), (3, [0, 0, 255, 1, 1, 7])],
      (asking base x.1 x.2).lu.mgmtQ = [(.U, request x.1 x.2)] ∧ frameClass (request x.1 x.2) = 32
        ∧ num8 (request x.1 x.2).body 0 = x.1.toNat ∧ (request x.1 x.2).body.drop 3 = x.2 ∧ 4 ≤ x.2.length)
      ∧ base.resetPin = false ∧ base.mg.exec = .none ∧ base.ct.starting = false
      ∧ bad 117 [2, 0, 0, 1] ∧ bad 117 [0, 10, 0, 1] ∧ bad 117 [0, 0, 0, 0] ∧ bad 117 [0, 0, 0, 118]
      ∧ bad 117 [0, 0, 140, 117] ∧ ¬ bad 117 [1, 9, 139, 117] ∧ ¬ bad 116 [0, 0, 0, 1, 0, 7]
      ∧ ¬ bad 120 [0, 0, 255, 1, 1, 7]
      ∧ entryOf base.tm .s1 9 = .none ∧ entryOf (line opened).tm .s0 9 = .some { page := 0, readOnly := false }
      ∧ pageInUse (line opened) 0 = true
      ∧ pageInUse { line opened with tm := { (line opened).tm with active := .none } } 0 = false := by decide +kernel

/-- A management access in progress for the given work. -/
def accessing (w : Work) (k : AccessKind) (changed : BitVec 22) : State :=
  { base with
    mg := { base.mg with exec := .some { port := .U, frame := request 1 [], work := w } }
    tm := { base.tm with
      words := [(0, { written := 5, changed := changed })]
      access := .some { who := .management, index := 0, kind := k, wanted := true } } }

theorem witness_TableAccessesReadWriteAndMerge :
    (∀ w ∈ [Work.read 0 2 [], .read 0 1 [], .write 0 [1, 2] 0, .write 0 [1] 0, .writeByte 0 .low [1, 2] 0,
        .writeByte 0 .high [1] 0],
      ∃ a ∈ (accessing w .read 0).tm.access, a.who = .management
        ∧ (accessing w .read 0).mg.exec = .some { port := .U, frame := request 1 [], work := w })
      ∧ (accessing (.read 0 1 []) .read 0).resetPin = false
      ∧ checkAt (accessing (.read 0 1 []) .read 3) 0 = .double
      ∧ checkAt (accessing (.read 0 1 []) .read 1) 0 = .single 5
      ∧ ([1, 2] : List Word)[0]? = .some 1 ∧ ([1, 2] : List Word)[0 + 1]? = .some 2
      ∧ ([1] : List Word).length = 0 + 1 := by decide +kernel

theorem witness_SetSelectionCopiesThenActivates :
    (∀ x ∈ [([2] : List Byte), [1], [0]], (asking (line opened) 5 x).lu.mgmtQ = [(.U, request 5 x)]
        ∧ (request 5 x).body.length = 4 ∧ num8 (request 5 x).body 0 = 5 ∧ frameClass (request 5 x) = 32)
      ∧ (line opened).resetPin = false ∧ (line opened).mg.exec = .none ∧ (line opened).ct.starting = false
      ∧ (∃ k : Fin 10, (mapOf (line opened).tm .s1)[k] = .none)
      ∧ (∀ k : Fin 10, (mapOf (line opened).tm .s0)[k] ≠ .none)
      ∧ entryOf (line opened).tm .s0 0 = .some { page := 0, readOnly := false }
      ∧ entryOf (line opened).tm .s0 1 = .some { page := 0, readOnly := false }
      ∧ (List.replicate 263 (0 : Word)).length = 263 ∧ (List.replicate 262 (0 : Word)).length + 1 = 263
      ∧ (List.replicate 261 (0 : Word)).length + 1 < 263
      ∧ (∃ a ∈ (accessing (.select .s0 (List.replicate 262 0)) .read 3).tm.access, a.who = .management)
      ∧ checkAt (accessing (.select .s0 []) .read 3) 0 = .double
      ∧ checkAt (accessing (.select .s0 []) .read 0) 0 = .clean 5 := by decide +kernel

theorem witness_ReadsAreCheckedAndTheScrubberRepairs :
    let visit : Access := { who := .scrubber, index := 0, kind := .scrub, wanted := true }
    let waits : State := { base with tm := { base.tm with
      visitDue := true, scrubTimer := .some 100, waitCommit := .some 0, waitOpt := .some 1, waitMgmt := .some (2, .read) } }
    popCount (0 : BitVec 22) = 0 ∧ popCount (1 : BitVec 22) = 1 ∧ popCount (3 : BitVec 22) = 2
      ∧ waits.resetPin = false ∧ waits.tm.scrubTimer = .some 100 ∧ visit.kind = .scrub
      ∧ waits.tm.access = .none ∧ waits.ct.starting = false ∧ waits.tm.visitDue = true ∧ base.tm.visitDue = false
      ∧ waits.tm.waitCommit = .some 0 ∧ base.tm.waitCommit = .none ∧ base.tm.waitOpt = .none
      ∧ (accessing (.read 0 1 []) .read 0).tm.access ≠ .none := by decide +kernel

/-! ### Witnesses: management requests and resets -/

/-- Each request of the statements below, with its arguments whole, waits and can be taken. -/
theorem witness_Requested (code : Byte) (args : List Byte) :
    Requested (asking (line opened) code args) .U (request code args) [] code.toNat args.length := by
  refine ⟨rfl, rfl, rfl, rfl, rfl, rfl, ?_⟩
  show 3 + args.length ≤ ([code, 0, 0] ++ args).length
  simp; omega

theorem witness_ModeRequestsActByTheTable :
    Requested (asking (line opened) 6 [0]) .U (request 6 [0]) [] 6 1 ∧ num8 (request 6 [3]).body 3 = 3
      ∧ num8 (request 6 [0]).body 3 = 0 ∧ num8 (request 6 [1]).body 3 = 1 ∧ num8 (request 6 [2]).body 3 = 2
      ∧ modeCode (line opened).ct.mode = 2 ∧ (line opened).ct.mode ≠ .stop ∧ (line opened).ct.mode ≠ .bypass
      ∧ base.ct.mode ≠ .run ∧ base.tm.active = .none ∧ (line opened).tm.active ≠ .none := by
  refine ⟨witness_Requested 6 [0], ?_⟩
  decide +kernel

/-- Masks that name tol in RUN and in STOP, none, own address alone, and values that break R19. -/
theorem witness_GeometryWritesApplyWholeOrNotAtAll :
    let args (hi lo tol : Byte) : List Byte := [hi, lo, 0, 0, 0, tol] ++ List.replicate 14 0
    Requested (asking (line opened) 7 (args 0 2 20)) .U (request 7 (args 0 2 20)) [] 7 20
      ∧ SettingsSound (line opened)
      ∧ (∃ k : Fin 11, (word16 (args 0 2 20) 0).getLsbD k = true) ∧ (line opened).ct.mode ≠ .stop
      ∧ base.ct.mode = .stop ∧ (∀ k : Fin 13, (word16 (args 0xE0 0 20) 0).getLsbD k = false)
      ∧ (∀ k : Fin 11, (word16 (args 8 0 20) 0).getLsbD k = false) ∧ (word16 (args 8 0 20) 0).getLsbD 11 = true
      ∧ (resulting base.settings (args 0 2 60)).tol ≤ (resulting base.settings (args 0 2 60)).countsPerStep / 4
      ∧ ¬ (resulting base.settings (args 0 2 61)).tol ≤ (resulting base.settings (args 0 2 61)).countsPerStep / 4 := by
  refine ⟨witness_Requested 7 _, by dsimp only [SettingsSound]; decide +kernel, ?_⟩
  decide +kernel

/-- MAP-WRITE of entry 9 of the active set and of the other; FILTER-WRITE of entries 15 and 16; BIN-WRITE of bins 47
and 48; QUOTA-SET of products 639 and 640. -/
theorem witness_EntryWritesChangeOneEntry :
    (∀ x ∈ [(4, [0, 9, 1, 31, 0]), (4, [1, 9, 1, 31, 0]), (4, [2, 0, 0, 0, 0]),
        (8, [15, 1, 63, 63, 31, 31, 1, 2, 3, 3]), (8, [16, 1, 0, 0, 0, 0, 0, 0, 0, 0]),
        (9, [47, 0x0F, 0xFF]), (9, [48, 0, 0]), (11, [2, 0x7F, 1, 0, 0]), (11, [2, 0x80, 1, 0, 0])],
      let n := (x : Byte × List Byte).2.length
      3 + n ≤ (request x.1 x.2).body.length ∧ (request x.1 x.2).body.drop 3 = x.2)
      ∧ (line opened).tm.active = .some .s0 ∧ ¬ ((line opened).tm.active = .some .s1)
      ∧ num16 [0x0F, 0xFF] 0 = 4095 ∧ num16 [0x10, 0] 0 = 4096
      ∧ num16 [2, 0x7F] 0 = 639 ∧ num16 [2, 0x80] 0 = 640
      ∧ 0 < (binAt (setBin base.bos 47 { capacity := 1, fill := 1, reserved := 0, outOfService := false }) 47).load := by
  decide +kernel

/-- Runs up to the last bin, product and group, and offsets 40 and 41. -/
theorem witness_ReadingRequestsReportTheState :
    (∀ x ∈ [(10, [24, 24]), (12, [2, 0x1C, 100]), (13, [0, 0, 2, 0x50, 48]), (13, [1, 3, 0, 0, 0]), (15, [9]), (15, [10]),
        (16, [0xFF, 0xD8]), (16, [0xFF, 0xD7])],
      (request x.1 x.2).body.drop 3 = x.2 ∧ 3 + (x : Byte × List Byte).2.length ≤ (request x.1 x.2).body.length)
      ∧ 24 + 24 ≤ 48 ∧ ¬ 25 + 24 ≤ 48 ∧ num16 [2, 0x1C] 0 + 100 = 640 ∧ num16 [2, 0x50] 0 + 48 = 640
      ∧ num8 [9] 0 ≤ 9 ∧ 9 < num8 [10] 0
      ∧ (base.ct.seq - 0xFFD8).toNat ≤ base.settings.dSort ∧ base.settings.dSort < (base.ct.seq - 0xFFD7).toNat
      ∧ base.tu.closed = .none := by decide +kernel

theorem witness_TallyCloseBeginsTheNextPeriod :
    Requested (asking (line opened) 14 [0, 0, 0]) .U (request 14 [0, 0, 0]) [] 14 3
      ∧ Requested (asking (line opened) 14 [0, 0, 1]) .U (request 14 [0, 0, 1]) [] 14 3
      ∧ (num8 [0, 0, 0] 0 ≠ 0 ∨ word16 [0, 0, 0] 1 = base.tu.current.number)
      ∧ (num8 [1, 0, 1] 0 ≠ 0 ∨ word16 [1, 0, 1] 1 = base.tu.current.number)
      ∧ ¬ (num8 [0, 0, 1] 0 ≠ 0 ∨ word16 [0, 0, 1] 1 = base.tu.current.number)
      ∧ leaves .lugIndex base (fun _ => true) ∧ Instr.lugIndex ≠ .tallyClose ∧ Instr.lugIndex ≠ .powerOn
      ∧ sparseWf 0 base.tu.current.counts = true := by
  refine ⟨witness_Requested 14 _, witness_Requested 14 _, ?_⟩
  decide +kernel

/-- A body of two bytes, codes 0 and 18, and a TABLE-WRITE without its count. -/
theorem witness_BadAndLostRequestsAreAnswered :
    let lost : State := { base with handed := { base.handed with mgmtOverflows := [(.U, request 17 [])] } }
    (asking base 0 []).resetPin = false ∧ (asking base 0 []).mg.exec = .none ∧ (asking base 0 []).ct.starting = false
      ∧ (asking base 0 []).lu.mgmtQ = (.U, request 0 []) :: [] ∧ frameClass (request 0 []) = 32
      ∧ ¬ (3 ≤ (frame 32 0 [1, 0]).body.length)
      ∧ ¬ (1 ≤ num8 (request 0 []).body 0) ∧ ¬ (num8 (request 18 []).body 0 ≤ 17)
      ∧ ¬ (3 + 4 ≤ (request 2 [0, 0, 0]).body.length)
      ∧ lost.handed.mgmtOverflows = (.U, request 17 []) :: [] := by decide +kernel

theorem witness_ResetsLeaveTheValuesOfTheTables :
    State.reset.resetPin = false ∧ State.reset.ct.starting = true
      ∧ ({ base with resetPin := true } : State).resetPin = true
      ∧ Requested (asking (line opened) 17 []) .U (request 17 []) [] 17 0 :=
  ⟨rfl, rfl, rfl, witness_Requested 17 []⟩

end Sys2Proof.Tests
end

section
/-! SUPPORT. The chain's events, the taking of a management request, and the MODE and GEOMETRY-WRITE requests: what
each can do, and the statements settled from it. -/

namespace Sys2Proof.Proofs

open Sys2Proof Sys2Proof.Machine

/-! ### The meanings of the commands -/

theorem exec_encoderCount (s : State) : exec .encoderCount s = taken s countEvent := rfl
theorem exec_lugIndex (s : State) : exec .lugIndex s = taken s indexEvent := rfl
theorem exec_mode (s : State) : exec .mode s = taken s (takeRequest 6 modeRequest) := rfl
theorem exec_geometryWrite (s : State) : exec .geometryWrite s = taken s (takeRequest 7 geometryWrite) := rfl

/-! ### The chain (R1 to R3) -/

/-- R3: an index below the window is only counted. -/
theorem indexEvent_spurious {s : State} (h : s.ct.c + s.settings.tol < s.settings.countsPerStep) :
    indexEvent s = s.updCt fun c => { c with spurious := satInc c.spurious } := if_pos h

/-- R3: any other index is accepted. -/
theorem indexEvent_accepted {s : State} (h : s.settings.countsPerStep ≤ s.ct.c + s.settings.tol) :
    indexEvent s = acceptIndex s := if_neg (Nat.not_lt.2 h)

/-- R3: the slip test is the one over the integers. -/
theorem slipped_iff (c p tol : Nat) : slipped c p tol = true ↔ (tol : Int) < 2 * |(c : Int) - p| := by
  rw [slipped, decide_eq_true_eq, Int.abs_eq_natAbs]
  omega

theorem acceptIndex_slipped {s : State} (h : slipped s.ct.c s.settings.countsPerStep s.settings.tol = true) :
    acceptIndex s = advance (raiseAlert (s.updCt fun c => { c with slip := satInc c.slip }) .chain) false :=
  if_pos h

theorem acceptIndex_steady {s : State} (h : ¬ slipped s.ct.c s.settings.countsPerStep s.settings.tol = true) :
    acceptIndex s = advance s false := if_neg h

/-- R1: past the counts of a lug step the count hands no switch point. -/
theorem handSwitchByCount_past {s : State} (h : s.settings.countsPerStep < s.ct.c) : handSwitchByCount s = s :=
  if_neg fun ⟨_, hc, _⟩ => by omega

/-- R2, R3: a count above the window finds the index missing, whatever the count before it did. -/
theorem countEvent_high {s : State} (h : s.settings.countsPerStep + s.settings.tol < s.ct.c) :
    countEvent s = missingIndex (s.updCt fun c => { c with c := c.c + 1 }) := by
  have hand : handSwitchByCount (s.updCt fun c => { c with c := c.c + 1 })
      = s.updCt fun c => { c with c := c.c + 1 } :=
    handSwitchByCount_past (by simp only [State.updCt_settings, State.updCt_ct]; omega)
  rw [countEvent, hand]
  exact if_pos (by simp only [State.updCt_settings, State.updCt_ct]; omega)

/-- Settles O19: the window and the slip test split the cases of an index; a count already above the window is
past the switch point, so only the missing index remains of it. -/
theorem lugIndexIsSpuriousOrAdvances : Obligations.LugIndexIsSpuriousOrAdvances := by
  intro s up
  rw [exec_lugIndex, exec_encoderCount, taken_next s _ up, taken_next s _ up]
  refine ⟨fun below => ?_, fun inside slips => ?_, fun inside steady => ?_, fun high => ?_⟩
  · rw [indexEvent_spurious below]; rfl
  · rw [indexEvent_accepted inside, acceptIndex_slipped ((slipped_iff _ _ _).2 slips)]; rfl
  · rw [indexEvent_accepted inside, acceptIndex_steady fun h => ((slipped_iff _ _ _).1 h).not_ge steady]
  · rw [countEvent_high high]; rfl

/-! ### Taking a request (R175, R178) -/

/-- Taking the head of the MGMT queue leaves its rest. -/
theorem popRx_mgmt {s : State} {p : Port} {f : Frame} {rest : List (Port × Frame)}
    (h : s.lu.mgmtQ = (p, f) :: rest) : popRx s .mgmt = mgmtTaken s rest := by
  simp only [popRx, mgmtTaken, State.updLu, setRxQueue, rxQueue, h, List.tail_cons]

/-- A request in its turn is taken from its queue and carried out. -/
theorem takeRequest_requested {s : State} {p : Port} {f : Frame} {rest : List (Port × Frame)} {code args : Nat}
    (k : State → Port → Frame → State) (hargs : argLength code = .some args) (h : Requested s p f rest code args) :
    taken s (takeRequest code k) = .next (k (mgmtTaken s rest) p f) := by
  obtain ⟨up, idle, started, queue, cls, hcode, length⟩ := h
  have ready : mgmtReady s = true := by simp [mgmtReady, idle, started]
  have sound : soundCode code f = true := by
    simp only [soundCode, soundRequest, hcode, hargs, Option.any_some, Bool.and_eq_true, decide_eq_true_eq,
      beq_self_eq_true, true_and]
    omega
  rw [taken_next s _ up, takeRequest, takeRequestIf, if_pos ready]
  simp only [queue, cls, sound, and_self, if_true, popRx_mgmt queue]

/-! ### Settings (R18, R19) -/

/-- A word masked by its n low bits is not zero exactly when one of them is set. -/
theorem mask_ne_zero_iff {n : Nat} (w : Word) (hn : n ≤ 16) :
    w &&& BitVec.ofNat 16 (2 ^ n - 1) ≠ 0 ↔ ∃ k, k < n ∧ w.getLsbD k = true := by
  have bit {k : Nat} (hk : k < 16) :
      (w &&& BitVec.ofNat 16 (2 ^ n - 1)).getLsbD k = (w.getLsbD k && decide (k < n)) := by
    rw [BitVec.getLsbD_and, BitVec.getLsbD_ofNat, Nat.testBit_two_pow_sub_one, decide_eq_true hk, Bool.true_and]
  constructor
  · intro nonzero
    by_contra unset
    refine nonzero (BitVec.eq_of_getLsbD_eq fun k hk => Eq.trans ?_ BitVec.getLsbD_zero.symm)
    rw [bit hk, Bool.and_eq_false_iff, decide_eq_false_iff_not]
    by_cases set : w.getLsbD k = true
    · exact .inr fun low => unset ⟨k, low, set⟩
    · exact .inl (Bool.eq_false_iff.2 set)
  · rintro ⟨k, low, set⟩ zero
    have masked := bit (show k < 16 by omega)
    rw [zero, set, decide_eq_true low] at masked
    simp at masked

/-- Table 11-6: a resulting scrub interval is the one in force or sixteen bits wide. -/
theorem resulting_scrubInterval_le {g : Settings} (args : List Byte) (h : g.scrubInterval ≤ 65535) :
    (resulting g args).scrubInterval ≤ 65535 := by
  simp only [resulting]
  split
  · have := (word16 args 18).isLt
    simp only [num16]; omega
  · exact h

/-- R19: the checks of a GEOMETRY-WRITE are the ranges and relations that the settings in force keep. -/
theorem settingsValid_iff (s : State) : settingsValid s.settings = true ↔ SettingsSound s := by
  cases pair : s.settings.bypassPair with
  | none =>
    simp only [settingsValid, SettingsSound, pair, Bool.and_eq_true, decide_eq_true_eq, Option.mem_def,
      reduceCtorEq, false_implies, implies_true, and_true, true_and]
    omega
  | some q =>
    obtain ⟨i, j⟩ := q
    simp only [settingsValid, SettingsSound, pair, Bool.and_eq_true, decide_eq_true_eq, Option.mem_def,
      Option.some.injEq, forall_eq']
    omega

/-- Table 0-4: the scrub interval in force fits sixteen bits. -/
theorem settingsSound_scrubInterval_le {s : State} (h : SettingsSound s) : s.settings.scrubInterval ≤ 65535 := by
  simp only [SettingsSound] at h; omega

/-- R18: the settings written only in STOP have the eleven low bits of the mask. -/
theorem stopOnly_iff (mask : Word) : stopOnly mask = true ↔ ∃ k, k < 11 ∧ mask.getLsbD k = true := by
  rw [stopOnly, bne_iff_ne]
  exact mask_ne_zero_iff (n := 11) mask (by decide)

/-- R18: a mask names a setting in its thirteen low bits. -/
theorem mask_names_iff (mask : Word) : ¬ mask &&& 0x1FFF = 0 ↔ ∃ k, k < 13 ∧ mask.getLsbD k = true :=
  mask_ne_zero_iff (n := 13) mask (by decide)

theorem policyNamed_iff (args : List Byte) :
    policyNamed args = true ↔ ((word16 args 0).getLsbD 7 = true → num8 args 12 ≤ 1) := by
  rw [policyNamed, Bool.or_eq_true, decide_eq_true_eq, Bool.not_eq_true', ← Bool.not_eq_true]
  exact imp_iff_not_or.symm

/-- R18: outside STOP no setting but own address and scrub interval is written. -/
theorem geometryWrite_wrongMode {s : State} {f : Frame} (p : Port)
    (stop : stopOnly (word16 (requestArgs f) 0) = true) (mode : s.ct.mode ≠ .stop) :
    geometryWrite s p f = reply s p f .wrongMode [] :=
  if_pos (by simp [stop, mode])

section Admitted

variable {s : State} {f : Frame} (p : Port)
  (admitted : ¬ (stopOnly (word16 (requestArgs f) 0) = true ∧ s.ct.mode ≠ .stop))

include admitted

theorem geometryWrite_unnamed (unnamed : word16 (requestArgs f) 0 &&& 0x1FFF = 0) :
    geometryWrite s p f = reply s p f .done [] :=
  (if_neg (by simpa using admitted)).trans (if_pos unnamed)

variable (named : ¬ word16 (requestArgs f) 0 &&& 0x1FFF = 0)

include named

theorem geometryWrite_applied
    (valid : (policyNamed (requestArgs f) && settingsValid (resulting s.settings (requestArgs f))) = true) :
    geometryWrite s p f = reply (s.updSettings fun g => resulting g (requestArgs f)) p f .done [] :=
  (if_neg (by simpa using admitted)).trans ((if_neg named).trans (if_pos valid))

theorem geometryWrite_badArg
    (invalid : ¬ (policyNamed (requestArgs f) && settingsValid (resulting s.settings (requestArgs f))) = true) :
    geometryWrite s p f = reply s p f .badArg [] :=
  (if_neg (by simpa using admitted)).trans ((if_neg named).trans (if_neg invalid))

end Admitted

/-- Settles O55: the two mask tests of the model are the statement's named bits, and its checks on the resulting
configuration are R19's, so each clause is one outcome of the write. -/
theorem geometryWritesApplyWholeOrNotAtAll : Obligations.GeometryWritesApplyWholeOrNotAtAll := by
  intro s p f rest request sound s1 args names old pair g stop any valid
  rw [exec_geometryWrite, takeRequest_requested _ rfl request]
  have hstop : stopOnly (word16 args 0) = true ↔ stop := stopOnly_iff _
  have hany : ¬ word16 args 0 &&& 0x1FFF = 0 ↔ any := mask_names_iff _
  have hscrub : g.scrubInterval ≤ 65535 := resulting_scrubInterval_le args (settingsSound_scrubInterval_le sound)
  have hvalid : (policyNamed args && settingsValid g) = true ↔ valid := by
    rw [Bool.and_eq_true, policyNamed_iff, settingsValid_iff { s1 with settings := g }]
    simp only [SettingsSound, valid, hscrub, and_true, names]
    tauto
  refine ⟨fun only mode => ?_, fun h => ?_⟩
  · exact congrArg _ (geometryWrite_wrongMode p (hstop.2 only) mode)
  · have admitted : ¬ (stopOnly (word16 args 0) = true ∧ s1.ct.mode ≠ .stop) := by rwa [hstop]
    refine ⟨fun unnamed => ?_, fun named invalid => ?_, fun named ok => ?_⟩
    · exact congrArg _ (geometryWrite_unnamed p admitted (not_not.1 (hany.not.2 unnamed)))
    · exact congrArg _ (geometryWrite_badArg p admitted (hany.2 named) (hvalid.not.2 invalid))
    · exact congrArg _ (geometryWrite_applied p admitted (hany.2 named) (hvalid.2 ok))

/-! ### The line mode (R14) -/

theorem num8_requestArgs (f : Frame) (i : Nat) : num8 (requestArgs f) i = num8 f.body (3 + i) := by
  simp [num8, byteAt, requestArgs, List.getD_eq_getElem?_getD]

theorem modeOf_modeCode (m : LineMode) : modeOf (modeCode m) = .some m := by cases m <;> rfl

theorem modeOf_above : ∀ {n : Nat}, 2 < n → modeOf n = .none
  | _ + 3, _ => rfl

theorem modeRequest_badArg {s : State} {f : Frame} (p : Port) (h : 2 < num8 f.body 3) :
    modeRequest s p f = reply s p f .badArg [] := by
  rw [modeRequest, num8_requestArgs, modeOf_above h]

theorem modeRequest_answer {s t : State} {f : Frame} (p : Port) {m : LineMode} {r : Result}
    (hcode : num8 f.body 3 = modeCode m) (hmode : changeMode s m = (r, t)) :
    modeRequest s p f = reply t p f r [] := by
  rw [modeRequest, num8_requestArgs, hcode, modeOf_modeCode]
  simp only [hmode]

/-- Table 1-5: a request for the mode in force changes nothing. -/
theorem changeMode_same (s : State) : changeMode s s.ct.mode = (.done, s) := by
  unfold changeMode; cases s.ct.mode <;> rfl

theorem changeMode_bypass {s : State} (h : s.ct.mode ≠ .bypass) :
    changeMode s .bypass = (.done, setMode s .bypass) := by
  unfold changeMode
  cases mode : s.ct.mode with
  | bypass => exact absurd mode h
  | stop | run => rfl

theorem changeMode_run {s : State} (h : s.ct.mode ≠ .run) (set : s.tm.active ≠ .none) :
    changeMode s .run = (.done, setMode s .run) := by
  unfold changeMode
  cases mode : s.ct.mode with
  | run => exact absurd mode h
  | stop | bypass => exact if_pos (Option.isSome_iff_ne_none.2 set)

theorem changeMode_run_noSet {s : State} (h : s.ct.mode ≠ .run) (unset : s.tm.active = .none) :
    changeMode s .run = (.noSet, s) := by
  unfold changeMode
  cases mode : s.ct.mode with
  | run => exact absurd mode h
  | stop | bypass => exact if_neg (by simp [unset])

theorem changeMode_stop {s : State} (h : s.ct.mode ≠ .stop) :
    changeMode s .stop = (.done, setMode (clearRing s) .stop) := by
  unfold changeMode
  cases mode : s.ct.mode with
  | stop => exact absurd mode h
  | bypass | run => rfl

/-! ### Entering STOP (R15) -/

theorem getElem_vecMap {α β : Type} {n : Nat} (f : α → β) (v : Vector α n) (k : Fin n) :
    (vecMap f v)[k] = f v[k] := by
  simp [vecMap]

/-- R12: the ring emptied keeps its sequences. -/
theorem getElem_emptyRing (r : Vector Slot 64) (k : Fin 64) : (emptyRing r)[k] = Slot.empty r[k].seq :=
  getElem_vecMap _ r k

/-- R108: one release lowers one reserved count. -/
theorem getElem_unreserve (b : BinStore) (n : Nat) (k : Fin 48) : (unreserve b n).bins[k] =
    { b.bins[k] with reserved := b.bins[k].reserved - if n = k.val then 1 else 0 } := by
  by_cases h : n = k.val <;> simp [unreserve, setBin, binAt, h]

theorem releaseAll_cons (sl : Slot) (l : List Slot) (b : BinStore) :
    releaseAll (sl :: l) b = releaseAll l (((sl.committed.bind (·.bin)).map (unreserve b)).getD b) := by
  rw [releaseAll, releaseAll, List.foldl_cons]
  cases sl.committed.bind (·.bin) <;> rfl

/-- R108: the releases of a clearing lower each bin's reserved count by the slots that hold a reservation in it. -/
theorem getElem_releaseAll (k : Fin 48) : ∀ (l : List Slot) (b : BinStore), (releaseAll l b).bins[k] =
    { b.bins[k] with
      reserved := b.bins[k].reserved - l.countP fun sl => (sl.committed.bind (·.bin)) == .some k.val }
  | [], b => rfl
  | sl :: l, b => by
    rw [releaseAll_cons, getElem_releaseAll k l, List.countP_cons]
    cases h : sl.committed.bind (·.bin) with
    | none => simp
    | some n =>
      rw [Option.map_some, Option.getD_some, getElem_unreserve, Nat.sub_sub, Nat.add_comm]
      simp

theorem releaseAll_quota_counts : ∀ (l : List Slot) (b : BinStore),
    (releaseAll l b).quota = b.quota ∧ (releaseAll l b).counts = b.counts
  | [], _ => ⟨rfl, rfl⟩
  | sl :: l, b => by
    rw [releaseAll_cons]
    cases sl.committed.bind (·.bin) with
    | none => exact releaseAll_quota_counts l b
    | some n => exact releaseAll_quota_counts l (unreserve b n)

theorem pairwise_heldBuffers (l : List Slot) : (heldBuffers l).Pairwise (· < ·) :=
  List.pairwise_lt_range.filter _

theorem mem_heldBuffers (r : Vector Slot 64) (n : Fin 24) :
    n.val ∈ heldBuffers r.toList ↔ ∃ k : Fin 64, r[k].buffer = .some n.val := by
  simp only [heldBuffers, List.mem_filter, List.mem_range, n.isLt, true_and, List.any_eq_true, beq_iff_eq,
    Vector.mem_toList_iff, Vector.mem_iff_getElem, Fin.exists_iff, Fin.getElem_fin]
  grind

/-- R47, R67, R139: an abandoned job leaves its counter one higher, its waiting request withdrawn and its access
disowned. -/
theorem abandonJob_eq (s : State) : abandonJob s = { s with
    opt := { s.opt with
      job := .none
      counts := if s.opt.job.isSome then
          { s.opt.counts with abandoned := satInc s.opt.counts.abandoned } else s.opt.counts }
    tm := { s.tm with
      waitOpt := if s.opt.job.isSome then .none else s.tm.waitOpt
      access := if s.opt.job.isSome then disown .optimizer s.tm.access else s.tm.access } } := by
  unfold abandonJob
  cases h : s.opt.job with
  | none =>
    simp only [Option.isSome_none, Bool.false_eq_true, if_false]
    rw [← h]
  | some j => rfl

/-- R15: the ring clearing, field by field, around the bin event of its releases. -/
theorem clearRing_eq (s : State) :
    clearRing s = { storeEvent s (fun _ => releaseAll s.ring.toList s.bos) with
      ct := s.ct
      ring := emptyRing s.ring
      sa := { s.sa with freeList := s.sa.freeList ++ heldBuffers s.ring.toList }
      opt := { (abandonJob s).opt with queue := [] }
      cu := CommitUnit.atReset
      tm := abandonCommitAccess (abandonJob s).tm
      tu := { s.tu with current := s.tu.current.add .clearings 1 } } := by
  have event : (storeEvent s fun b => releaseAll s.ring.toList b)
      = storeEvent s fun _ => releaseAll s.ring.toList s.bos := rfl
  have kept : unchangedBut [.bos, .lu, .freeCount] s (storeEvent s fun _ => releaseAll s.ring.toList s.bos) :=
    storeEvent_touches s _
  have hct := kept .ct (by decide)
  have hring := kept .ring (by decide)
  have hsa := kept .sa (by decide)
  have hopt := kept .opt (by decide)
  have htm := kept .tm (by decide)
  have htu := kept .tu (by decide)
  simp only [Block.same] at hct hring hsa hopt htm htu
  simp only [clearRing, clearCommit, abandonJob_eq, event, State.updSa, State.updOpt, State.updCu, State.updTm,
    State.updRing, State.report, State.updTu, List.foldl_cons, List.foldl_nil, hct, hring, hsa, hopt, htm, htu]

/-- Settles O54: each clause is one row of Table 1-5, and the last names the emptied ring, the store after every
release and the buffers released. -/
theorem modeRequestsActByTheTable : Obligations.ModeRequestsActByTheTable := by
  intro s p f rest request s1 code inMode disowned
  rw [exec_mode, takeRequest_requested _ rfl request]
  refine ⟨fun above => ?_, fun same => ?_, fun bypass other => ?_, fun run other => ⟨fun set => ?_, fun unset => ?_⟩,
    fun stop other => ?_⟩
  · exact congrArg _ (modeRequest_badArg p above)
  · exact congrArg _ (modeRequest_answer p same (changeMode_same s1))
  · exact congrArg _ (modeRequest_answer p (m := .bypass) bypass (changeMode_bypass (s := s1) other))
  · exact congrArg _ (modeRequest_answer p (m := .run) run (changeMode_run (s := s1) other set))
  · exact congrArg _ (modeRequest_answer p (m := .run) run (changeMode_run_noSet (s := s1) other unset))
  · obtain ⟨hquota, hcounts⟩ := releaseAll_quota_counts s.ring.toList s.bos
    refine ⟨emptyRing s.ring, releaseAll s.ring.toList s.bos, heldBuffers s.ring.toList,
      setMode (clearRing s1) .stop, getElem_emptyRing s.ring, fun n => getElem_releaseAll n _ _, hquota, hcounts,
      pairwise_heldBuffers _, mem_heldBuffers s.ring, ?_, ?_⟩
    · rw [clearRing_eq, abandonJob_eq]; rfl
    · exact congrArg _ (modeRequest_answer p (m := .stop) stop (changeMode_stop (s := s1) other))

end Sys2Proof.Proofs
end

section
/-! SUPPORT. The taking of a scanner frame and the refusals of a BOARD-OPEN: one equation for each outcome of
Table 2-2, and the statement settled from them. -/

namespace Sys2Proof.Proofs

open Sys2Proof Sys2Proof.Machine

theorem exec_boardOpen (s : State) : exec .boardOpen s = taken s (takeScan 1 openBoard) := rfl

/-! ### Taking a scanner frame (R24, R40) -/

/-- Taking the head of the SCAN queue leaves its rest. -/
theorem popRx_scan {s : State} {p : Port} {f : Frame} {rest : List (Port × Frame)}
    (h : s.lu.scanQ = (p, f) :: rest) : popRx s .scan = scanTaken s rest := by
  simp only [popRx, scanTaken, State.updLu, setRxQueue, rxQueue, h, List.tail_cons]

/-- A scanner frame of its class is taken from its queue and judged; the loss run falls after that. -/
theorem takeScan_waiting {s : State} {p : Port} {f : Frame} {rest : List (Port × Frame)} {cls fixed : Nat}
    (k : State → Frame → State) (h : ScanWaiting s p f rest cls fixed) :
    taken s (takeScan cls k) = .next (endScanTake (k (scanTaken s rest) f)) := by
  obtain ⟨up, queue, hcls, _⟩ := h
  rw [taken_next s _ up, takeScan]
  simp only [queue, hcls, if_true, popRx_scan queue]

/-- R22: a property that the empty entry lacks holds of a head's entry exactly when the id names one of the eight
heads of the cache and it holds of that head. -/
theorem headAt_iff (c : HeadCache) (n : Nat) (flag : HeadEntry → Bool) (absent : flag HeadEntry.empty = false) :
    flag (headAt c n) = true ↔ ∃ h : Fin 8, n = h.val ∧ flag c.heads[h] = true := by
  constructor
  · intro set
    by_cases inside : n < 8
    · exact ⟨⟨n, inside⟩, rfl, by rwa [← headAt_fin c ⟨n, inside⟩]⟩
    · have outside : headAt c n = HeadEntry.empty := by
        rw [headAt, Vector.getElem?_eq_none (Nat.not_lt.1 inside), Option.getD_none]
      rw [outside, absent] at set
      cases set
  · rintro ⟨h, rfl, set⟩
    rwa [headAt_fin]

/-! ### The refusals of a BOARD-OPEN (R24, R25, R27) -/

section
variable {s : State} {f : Frame}

theorem openBoard_short (short : f.body.length < 5) :
    openBoard s f = s.updScanCounts fun c => { c with shortBody := satInc c.shortBody } := if_pos short

variable (long : 5 ≤ f.body.length)
include long

theorem openBoard_late (late : s.settings.dScanwin < offset s f.tag) :
    openBoard s f = s.updScanCounts fun c => { c with lateOpen := satInc c.lateOpen } :=
  (if_neg (Nat.not_lt.2 long)).trans (if_pos late)

variable (inTime : offset s f.tag ≤ s.settings.dScanwin)
include inTime

theorem openBoard_wrongMode (other : (slotAt s f.tag).origin ≠ .run) :
    openBoard s f = s.updScanCounts fun c => { c with wrongMode := satInc c.wrongMode } :=
  (if_neg (Nat.not_lt.2 long)).trans <| (if_neg (Nat.not_lt.2 inTime)).trans (if_pos other)

variable (run : (slotAt s f.tag).origin = .run)
include run

theorem openBoard_duplicate (filled : (slotAt s f.tag).board ≠ .none) :
    openBoard s f = s.updScanCounts fun c => { c with duplicate := satInc c.duplicate } :=
  (if_neg (Nat.not_lt.2 long)).trans <| (if_neg (Nat.not_lt.2 inTime)).trans <|
    (if_neg (not_not_intro run)).trans (if_pos filled)

variable (unopened : (slotAt s f.tag).board = .none)
include unopened

theorem openBoard_notLead (follower : (headAt s.sa.cache (num8 f.body 0)).lead = false) :
    openBoard s f = s.updScanCounts fun c => { c with notLead := satInc c.notLead } :=
  (if_neg (Nat.not_lt.2 long)).trans <| (if_neg (Nat.not_lt.2 inTime)).trans <|
    (if_neg (not_not_intro run)).trans <| (if_neg (not_not_intro unopened)).trans (if_pos follower)

/-- R27: with no buffer free the slot records the board UNSCANNED. -/
theorem openBoard_noBuffer (lead : (headAt s.sa.cache (num8 f.body 0)).lead = true) (full : s.sa.freeList = []) :
    openBoard s f = (updSlot s f.tag fun sl => { sl with board := .unscanned, cause := .some .noBuffer }).updScanCounts
      fun c => { c with noBuffer := satInc c.noBuffer } :=
  (if_neg (Nat.not_lt.2 long)).trans <| (if_neg (Nat.not_lt.2 inTime)).trans <|
    (if_neg (not_not_intro run)).trans <| (if_neg (not_not_intro unopened)).trans <|
      (if_neg (by simp [lead])).trans (by rw [full])

end

/-- Settles O21: taking the frame changes nothing that Table 2-2 reads, so each clause is one row of the table
applied to the state with the frame taken. -/
theorem boardOpenRefusals : Obligations.BoardOpenRefusals := by
  intro s p f rest waiting n off sl lead ends
  have lead_iff : (headAt (scanTaken s rest).sa.cache (num8 f.body 0)).lead = true ↔ lead :=
    headAt_iff s.sa.cache _ HeadEntry.lead rfl
  rw [exec_boardOpen, takeScan_waiting openBoard waiting]
  refine ⟨fun short => ?_, fun long => ⟨fun late => ?_, fun inTime other => ?_, fun inTime run filled => ?_,
    fun inTime run unopened follower => ?_, fun inTime run unopened leads full => ?_⟩⟩
  · rw [openBoard_short short]; rfl
  · rw [openBoard_late (s := scanTaken s rest) long late]; rfl
  · rw [openBoard_wrongMode (s := scanTaken s rest) long inTime other]; rfl
  · rw [openBoard_duplicate (s := scanTaken s rest) long inTime run filled]; rfl
  · have follows := Bool.eq_false_iff.2 (mt lead_iff.1 follower)
    rw [openBoard_notLead (s := scanTaken s rest) long inTime run unopened follows]; rfl
  · rw [openBoard_noBuffer (s := scanTaken s rest) long inTime run unopened (lead_iff.2 leads) full]; rfl

end Sys2Proof.Proofs
end

section
/-! SUPPORT. The optimizer's lock arrival: one equation for each place its lug can stand, and the statement settled
from them. -/

namespace Sys2Proof.Proofs

open Sys2Proof Sys2Proof.Machine

/-- R47: with the reset input released, the oldest lock handed to the optimizer is taken and carried out. -/
theorem exec_optimizerLock_handed {s : State} {lug : LugSeq} {rest : List LugSeq} (up : s.resetPin = false)
    (handed : s.handed.optLocks = lug :: rest) : exec .optimizerLock s =
      .next (optimizerLocks { s with handed := { s.handed with optLocks := rest } } lug) := by
  have meaning : exec .optimizerLock s = execOptimizerLock s := rfl
  rw [meaning, execOptimizerLock, taken_next s _ up, handed]; rfl

/-! ### Where the locked lug stands (R47) -/

section
variable {s : State} {lug : LugSeq}

theorem optimizerLocks_queued (queued : lug ∈ s.opt.queue) : optimizerLocks s lug =
    startJob { s with opt := { s.opt with queue := s.opt.queue.filter (· ≠ lug) } } := by
  have others : s.opt.queue.filter (· != lug) = s.opt.queue.filter (· ≠ lug) :=
    List.filter_congr fun _ _ => by rw [bne, Bool.beq_eq_decide_eq, decide_not]
  rw [optimizerLocks, if_pos queued, ← others]; rfl

variable (unqueued : lug ∉ s.opt.queue)
include unqueued

theorem optimizerLocks_running (running : ∃ j ∈ s.opt.job, j.lug = lug) :
    optimizerLocks s lug = startJob (abandonJob s) :=
  (if_neg unqueued).trans (if_pos ((isJobLug_iff s lug).2 running))

theorem optimizerLocks_elsewhere (other : ¬ ∃ j ∈ s.opt.job, j.lug = lug) : optimizerLocks s lug = startJob s :=
  (if_neg unqueued).trans (if_neg (mt (isJobLug_iff s lug).1 other))

end

/-- R67, R139: a running job's abandonment ends it, counts it, and withdraws or disowns its access. -/
theorem abandonJob_running {s : State} (running : s.opt.job.isSome = true) : abandonJob s = { s with
    opt := { s.opt with
      job := .none
      counts := { s.opt.counts with abandoned := satInc s.opt.counts.abandoned } }
    tm := { s.tm with waitOpt := .none, access := disown .optimizer s.tm.access } } := by
  rw [abandonJob_eq, if_pos running, if_pos running, if_pos running]

/-- Settles O31: the lock is taken first, which touches neither the queue nor the job, and the locked lug is then
queued, running, or neither. -/
theorem optimizerLockWithdrawsOrAbandons : Obligations.OptimizerLockWithdrawsOrAbandons := by
  intro s lug rest up handed s1 jobs
  rw [exec_optimizerLock_handed up handed]
  refine ⟨fun queued => ?_, fun unqueued running => ?_, fun unqueued other => ?_⟩
  · exact congrArg _ (optimizerLocks_queued (s := s1) queued)
  · rw [optimizerLocks_running (s := s1) unqueued running]
    obtain ⟨j, isJob, _⟩ := running
    rw [abandonJob_running (s := s1) (Option.isSome_of_mem isJob)]; rfl
  · exact congrArg _ (optimizerLocks_elsewhere (s := s1) unqueued other)

end Sys2Proof.Proofs
end

section
/-! SUPPORT. The store's events and the sorter notices: when an event leaves the two bin sets different, one equation
for each outcome of a notice, and the statement settled from them. -/

namespace Sys2Proof.Proofs

open Sys2Proof Sys2Proof.Machine

theorem exec_binEmptied (s : State) : exec .binEmptied s = taken s (takeNotice 20 1 binEmptied) := rfl
theorem exec_binService (s : State) : exec .binService s = taken s (takeNotice 21 2 binService) := rfl

/-! ### When a store event raises a BIN alert (R105) -/

theorem filter_range_eq_iff (m : Nat) (p q : Nat → Bool) :
    (List.range m).filter p = (List.range m).filter q ↔ ∀ n < m, p n = q n := by
  constructor
  · intro same n below
    have member : n ∈ (List.range m).filter p ↔ n ∈ (List.range m).filter q := by rw [same]
    rw [List.mem_filter, List.mem_filter] at member
    exact Bool.eq_iff_iff.2 (by simpa [below] using member)
  · exact fun alike => List.filter_congr fun n member => alike n (List.mem_range.1 member)

/-- Only bins 1 to 47 can tell two stores apart by a set that bin 0 is never in. -/
theorem filter_bins_eq_iff (p q : Nat → Bool) (catchBin : p 0 = q 0) :
    (List.range 48).filter p = (List.range 48).filter q ↔ ∀ n, 1 ≤ n → n ≤ 47 → p n = q n := by
  rw [filter_range_eq_iff]
  constructor
  · exact fun alike n _ last => alike n (Nat.lt_succ_of_le last)
  · intro alike n below
    cases n with
    | zero => exact catchBin
    | succ k => exact alike (k + 1) (Nat.le_add_left 1 k) (Nat.le_of_lt_succ below)

theorem fullSet_eq_iff (b c : BinStore) : fullSet b = fullSet c ↔
    ∀ n, 1 ≤ n → n ≤ 47 → binFull n (binAt b n) = binFull n (binAt c n) := filter_bins_eq_iff _ _ rfl

theorem outSet_eq_iff (b c : BinStore) : outSet b = outSet c ↔
    ∀ n, 1 ≤ n → n ≤ 47 → binOut n (binAt b n) = binOut n (binAt c n) := filter_bins_eq_iff _ _ rfl

/-- R104: a bin other than bin 0 is full in service with its load at its capacity or above. -/
theorem binFull_iff {n : Nat} (r : BinRecord) (other : 1 ≤ n) :
    binFull n r = true ↔ r.outOfService = false ∧ r.capacity ≤ r.load := by
  have nonzero : n ≠ 0 := Nat.one_le_iff_ne_zero.1 other
  simp [binFull, nonzero]

theorem binOut_eq {n : Nat} (r : BinRecord) (other : 1 ≤ n) : binOut n r = r.outOfService := by
  have nonzero : n ≠ 0 := Nat.one_le_iff_ne_zero.1 other
  simp [binOut, nonzero]

/-- R105: both sets stay when every bin from 1 to 47 stays full or not full, and in or out of service. -/
theorem binSets_eq_iff (b c : BinStore) : fullSet b = fullSet c ∧ outSet b = outSet c ↔
    ∀ n, 1 ≤ n → n ≤ 47 →
      (((binAt b n).outOfService = false ∧ (binAt b n).capacity ≤ (binAt b n).fill + (binAt b n).reserved) ↔
        (binAt c n).outOfService = false ∧ (binAt c n).capacity ≤ (binAt c n).fill + (binAt c n).reserved)
      ∧ (binAt b n).outOfService = (binAt c n).outOfService := by
  rw [fullSet_eq_iff, outSet_eq_iff]
  simp only [← forall_and]
  refine forall_congr' fun n => forall_congr' fun other => forall_congr' fun _ => ?_
  rw [Bool.eq_iff_iff, binFull_iff _ other, binFull_iff _ other, binOut_eq _ other, binOut_eq _ other]
  rfl

theorem storeEvent_quiet {s : State} {f : BinStore → BinStore}
    (same : fullSet (f s.bos) = fullSet s.bos ∧ outSet (f s.bos) = outSet s.bos) :
    storeEvent s f = s.updBos f := if_pos same

theorem storeEvent_alert {s : State} {f : BinStore → BinStore}
    (changed : ¬ (fullSet (f s.bos) = fullSet s.bos ∧ outSet (f s.bos) = outSet s.bos)) :
    storeEvent s f = raiseAlert (s.updBos f) .bin := if_neg changed

/-! ### Taking a notice (R109) -/

/-- The state with the notice at the head of the SORTER queue taken. -/
def sorterTaken (s : State) (rest : List (Port × Frame)) : State := { s with lu := { s.lu with sorterQ := rest } }

/-- Taking the head of the SORTER queue leaves its rest. -/
theorem popRx_sorter {s : State} {p : Port} {f : Frame} {rest : List (Port × Frame)}
    (h : s.lu.sorterQ = (p, f) :: rest) : popRx s .sorter = sorterTaken s rest := by
  simp only [popRx, sorterTaken, State.updLu, setRxQueue, rxQueue, h, List.tail_cons]

section
variable {s : State} {p : Port} {f : Frame} {rest : List (Port × Frame)} {cls fixed : Nat}
  (k : State → List Byte → State) (up : s.resetPin = false) (queue : s.lu.sorterQ = (p, f) :: rest)
  (ofClass : frameClass f = cls)
include up queue ofClass

theorem takeNotice_short (short : f.body.length < fixed) : taken s (takeNotice cls fixed k) =
    .next ((sorterTaken s rest).updStoreCounts fun c => { c with shortNotice := satInc c.shortNotice }) := by
  rw [taken_next s _ up, takeNotice]
  simp only [queue, ofClass, short, if_true, popRx_sorter queue]

theorem takeNotice_long (long : fixed ≤ f.body.length) :
    taken s (takeNotice cls fixed k) = .next (k (sorterTaken s rest) f.body) := by
  rw [taken_next s _ up, takeNotice]
  simp only [queue, ofClass, Nat.not_lt.2 long, if_true, if_false, popRx_sorter queue]

end

/-! ### What a notice does (R110, R111) -/

section
variable {s : State} {body : List Byte}

theorem binEmptied_badBin (above : 47 < num8 body 0) : binEmptied s body = countBadBin s := if_pos above

theorem binEmptied_store (inRange : num8 body 0 ≤ 47) : binEmptied s body =
    storeEvent s fun b => setBin b (num8 body 0) { binAt b (num8 body 0) with fill := 0 } :=
  if_neg (Nat.not_lt.2 inRange)

theorem binService_badBin (above : 47 < num8 body 0) : binService s body = countBadBin s := if_pos above

theorem binService_catchBin (catchBin : num8 body 0 = 0) : binService s body =
    s.updStoreCounts fun c => { c with catchBinNotice := satInc c.catchBinNotice } :=
  (if_neg (by omega)).trans (if_pos catchBin)

variable (other : 0 < num8 body 0) (inRange : num8 body 0 ≤ 47)
include other inRange

theorem binService_out (out : num8 body 1 = 1) :
    binService s body = storeEvent s fun b => setService b (num8 body 0) true :=
  (if_neg (Nat.not_lt.2 inRange)).trans ((if_neg other.ne').trans (if_pos out))

theorem binService_in (back : num8 body 1 = 0) :
    binService s body = storeEvent s fun b => setService b (num8 body 0) false :=
  (if_neg (Nat.not_lt.2 inRange)).trans <| (if_neg other.ne').trans <| (if_neg (by omega)).trans (if_pos back)

theorem binService_badDirection (bad : 1 < num8 body 1) : binService s body =
    s.updStoreCounts fun c => { c with badDirection := satInc c.badDirection } :=
  (if_neg (Nat.not_lt.2 inRange)).trans <| (if_neg other.ne').trans <| (if_neg bad.ne').trans (if_neg (by omega))

end

/-- Settles O44: the sets of R105 stay exactly when no bin from 1 to 47 changes its state, and each clause of a
notice is one outcome of R109 to R111 on the state with the notice taken. -/
theorem sorterNoticesSetTheirBin : Obligations.SorterNoticesSetTheirBin := by
  refine ⟨fun s f => ⟨fun alike => ?_, fun differs => ?_⟩, ?_⟩
  · exact storeEvent_quiet ((binSets_eq_iff (f s.bos) s.bos).2 alike)
  · exact storeEvent_alert (mt (binSets_eq_iff (f s.bos) s.bos).1 differs)
  intro s p f rest up queue s1 n b dir counted serves
  rw [exec_binEmptied, exec_binService]
  refine ⟨fun emptied => ⟨fun short => ?_, fun long above => ?_, fun long inRange => ?_⟩,
    fun service => ⟨fun short => ?_, fun long above => ?_, fun long catchBin => ?_, fun long other inRange =>
      ⟨fun back => ?_, fun out => ?_, fun bad => ?_⟩⟩⟩
  · exact takeNotice_short _ up queue emptied short
  · rw [takeNotice_long _ up queue emptied long, binEmptied_badBin above]; rfl
  · rw [takeNotice_long _ up queue emptied long, binEmptied_store inRange]; rfl
  · exact takeNotice_short _ up queue service short
  · rw [takeNotice_long _ up queue service long, binService_badBin above]; rfl
  · rw [takeNotice_long _ up queue service long, binService_catchBin catchBin]; rfl
  · rw [takeNotice_long _ up queue service long, binService_in other inRange back]; rfl
  · rw [takeNotice_long _ up queue service long, binService_out other inRange out]; rfl
  · rw [takeNotice_long _ up queue service long, binService_badDirection other inRange bad]; rfl

end Sys2Proof.Proofs
end

section
/-! SUPPORT. What every command leaves unchanged: the frame of each block's operations, up from those of the shared
operations, and the statements about the whole machine settled from them. -/

namespace Sys2Proof.Proofs

open Sys2Proof Sys2Proof.Machine

/-! ### Steps and the reset input -/

/-- Settles O1: the two cases of the queue are the two arms of `step`. -/
theorem stepRunsTheFrontCommand : Obligations.StepRunsTheFrontCommand :=
  ⟨fun s c rest h => by rw [step, h], fun s h => by rw [step, h]⟩

/-- R2: a count event that finds no index by P + tol. -/
def takeMissing (s : State) : State :=
  if s.settings.countsPerStep + s.settings.tol ≤ s.ct.c + 1 then countEvent s else s

/-- R157: a symbol on a DOWN port. -/
def takeLinkUp (s : State) (p : Port) (sym : Symbol) : State :=
  if (portOf s.lu p).link = .down then comeUp s p sym else s

/-- R152: the sweep in progress ends. -/
def endSweep (s : State) : State := if s.ct.starting then sweepEnds s else s

/-- R38: the oldest scan deadline handed over is taken. -/
def takeDeadline (s : State) : State :=
  match s.handed.deadlines with
  | [] => s
  | lug :: rest => scanDeadline (s.updHanded fun h => { h with deadlines := rest }) lug

/-- R40: a SCAN queue overflow handed over is taken. -/
def takeScanOverflow (s : State) : State :=
  match s.handed.scanOverflows with
  | 0 => s
  | n + 1 => scanOverflow (s.updHanded fun h => { h with scanOverflows := n })

/-- R52, R138: the optimizer's read in progress ends. -/
def endOptRead (s : State) : State :=
  match s.tm.access with
  | .some a =>
    if a.who = .optimizer then
      if a.wanted then askJobWord (giveJobWord (endAccess (noteRead s .optimizer a.index)) (checkAt s a.index))
      else endAccess (noteRead s .optimizer a.index)
    else s
  | .none => s

/-- R62: the running job completes, if it has what it needs. -/
def completeJob (s : State) : State :=
  match s.opt.job with
  | .none => s
  | .some job =>
    if jobReady job then startJob (jobOutcome (s.updOpt fun o => { o with job := .none }) job) else s

/-- R47: the oldest lock handed to the optimizer is taken. -/
def takeOptLock (s : State) : State :=
  match s.handed.optLocks with
  | [] => s
  | lug :: rest => optimizerLocks (s.updHanded fun h => { h with optLocks := rest }) lug

/-- R81: the oldest MARK queue overflow is answered. -/
def takeMarkOverflow (s : State) : State :=
  match s.handed.markOverflows with
  | [] => s
  | (p, f) :: rest => answerDropped (s.updHanded fun h => { h with markOverflows := rest }) p f

/-- R85: the oldest lock handed to the Commit Unit is taken. -/
def takeLock (s : State) : State :=
  match s.handed.locks with
  | [] => s
  | lug :: rest => lockArrives (s.updHanded fun h => { h with locks := rest }) lug

/-- R89: the Commit Unit's read in progress ends. -/
def endCommitRead (s : State) : State :=
  match s.tm.access with
  | .some a =>
    if a.who = .commit then
      if a.wanted then match (endAccess (noteRead s .commit a.index)).cu.inFlight with
        | .some fl => completeCommit (endAccess (noteRead s .commit a.index)) fl (checkAt s a.index)
        | .none => endAccess (noteRead s .commit a.index)
      else endAccess (noteRead s .commit a.index)
    else s
  | .none => s

/-- R96: the oldest switch point handed over is taken. -/
def takeSwitch (s : State) : State :=
  match s.handed.switches with
  | [] => s
  | lug :: rest => switchArrives (s.updHanded fun h => { h with switches := rest }) lug

/-- R99: the oldest sort handed over is taken. -/
def takeSort (s : State) : State :=
  match s.handed.sorts with
  | [] => s
  | lug :: rest => sortArrives (s.updHanded fun h => { h with sorts := rest }) lug

/-- R168: the frame in transmission ends and the next is started. -/
def endTransmission (s : State) (p : Port) : State :=
  match (portOf s.lu p).sending with
  | .none => s
  | .some _ => startTx (updPort s p fun ps => { ps with sending := .none }) p

/-- R140: the scrub interval expires, when its timer runs. -/
def expireInterval (s : State) : State :=
  match s.tm.scrubTimer with
  | .none => s
  | .some _ =>
    grant (s.updTm fun t => { t with visitDue := true, scrubTimer := .some s.settings.scrubInterval })

/-- R141: the scrub visit in progress ends. -/
def endVisit (s : State) : State :=
  match s.tm.access with
  | .some a => if a.kind = .scrub then endAccess (visitWord s a.index) else s
  | .none => s

/-- R177: the oldest MGMT queue overflow is answered. -/
def takeMgmtOverflow (s : State) : State :=
  match s.handed.mgmtOverflows with
  | [] => s
  | (p, f) :: rest => reply (s.updHanded fun h => { h with mgmtOverflows := rest }) p f .full []

/-- The effect of a command with the reset input released; the release of the input, which is then not held, has
none. -/
def effect : Instr → State → State
  | .encoderCount, s => countEvent s
  | .missingIndex, s => takeMissing s
  | .lugIndex, s => indexEvent s
  | .scanDeadline, s => takeDeadline s
  | .boardOpen, s => takeScan 1 openBoard s
  | .profile, s => takeScan 2 takeProfile s
  | .profileCont, s => takeScan 3 takeProfileCont s
  | .boardClose, s => takeScan 4 takeClose s
  | .scanQueueOverflow, s => takeScanOverflow s
  | .offer lug, s => offerLug s lug
  | .optimizerRead, s => endOptRead s
  | .jobCompletion, s => completeJob s
  | .optimizerLock, s => takeOptLock s
  | .gradeMark, s =>
    takeMarkIf (wholeMark (· == 1)) (fun s p f => takeMark s p f fun s => applyGrade s f.tag (markArg f)) s
  | .cutMark, s =>
    takeMarkIf (wholeMark (· == 2)) (fun s p f => takeMark s p f fun s => applyCut s f.tag (markArg f)) s
  | .rejectMark, s => takeMarkIf (wholeMark (· == 3)) (fun s p f => takeMark s p f fun s => applyReject s f.tag) s
  | .clearMark, s => takeMarkIf (wholeMark (· == 4)) (fun s p f => takeMark s p f fun s => applyClear s f.tag) s
  | .badMarkKind, s => takeMarkIf (wholeMark fun k => k == 0 || decide (4 < k)) (fun s p f => takeMark s p f id) s
  | .markQueueOverflow, s => takeMarkOverflow s
  | .lockArrival, s => takeLock s
  | .commitCompletion, s => endCommitRead s
  | .sawSwitchPoint, s => takeSwitch s
  | .sortArrival, s => takeSort s
  | .binEmptied, s => takeNotice 20 1 binEmptied s
  | .binService, s => takeNotice 21 2 binService s
  | .frameArrival p f, s => frameArrives (setRx s p .none) p f
  | .malformedFrame p how, s => malformedArrival (setRx s p (if how = .startMark then .some [] else .none)) p
  | .misroutedFrame q, s => misrouted s q
  | .linkAliveExpiry p, s => linkExpires s p
  | .linkUp p sym, s => takeLinkUp s p sym
  | .transmissionComplete p, s => endTransmission s p
  | .tableRead, s => takeRequest 1 tableRead s
  | .tableWrite, s => takeRequest 2 tableWrite s
  | .tableWriteByte, s => takeRequest 3 tableWriteByte s
  | .tableReadAccess, s => mgmtAccess readAccess s
  | .tableWriteAccess, s => mgmtAccess writeAccess s
  | .byteWriteAccess, s => mgmtAccess byteAccess s
  | .mapWrite, s => takeRequest 4 mapWrite s
  | .setSelect, s => takeRequest 5 setSelect s
  | .copyAccess, s => mgmtAccess copyAccess s
  | .scrubIntervalExpiry, s => expireInterval s
  | .scrubVisit, s => endVisit s
  | .mode, s => takeRequest 6 modeRequest s
  | .geometryWrite, s => takeRequest 7 geometryWrite s
  | .filterWrite, s => takeRequest 8 filterWrite s
  | .binWrite, s => takeRequest 9 binWrite s
  | .binRead, s => takeRequest 10 binRead s
  | .quotaSet, s => takeRequest 11 quotaSet s
  | .quotaRead, s => takeRequest 12 quotaRead s
  | .tallyRead, s => takeRequest 13 tallyRead s
  | .tallyClose, s => takeRequest 14 tallyClose s
  | .statusRead, s => takeRequest 15 statusRead s
  | .lugRead, s => takeRequest 16 lugRead s
  | .softReset, s => takeRequest 17 softResetRequest s
  | .badRequest, s => takeRequestIf (fun f => !soundRequest f) refuseBody s
  | .mgmtQueueOverflow, s => takeMgmtOverflow s
  | .powerOn, s => powerOn s
  | .sweepComplete, s => endSweep s
  | .resetAssert, s => assertReset s
  | .resetRelease, s => s
  | .symbolReceived p sym, s => symbolOn s p sym
  | .markShortBody, s => takeMarkIf (fun f => decide (f.body.length < 3))
      (fun s _ _ => s.updMh fun c => { c with shortBody := satInc c.shortBody }) s

/-- Every command but a power-on and the release of the reset input is an event of the part. -/
theorem exec_event {c : Instr} (notOn : c ≠ .powerOn) (notRelease : c ≠ .resetRelease) (s : State) :
    exec c s = taken s (effect c) := by
  cases c with
  | powerOn => exact absurd rfl notOn
  | resetRelease => exact absurd rfl notRelease
  | _ => rfl

/-- Settles O3: every command but the two named is an event of the part, which a held reset input keeps from being
taken. -/
theorem heldResetTakesNoEvents : Obligations.HeldResetTakesNoEvents := fun _ s held notOn notRelease =>
  (exec_event notOn notRelease s).trans (taken_held s _ held)

/-- With the reset input released every command has its effect. -/
theorem exec_released (c : Instr) {s : State} (up : s.resetPin = false) : exec c s = .next (effect c s) := by
  by_cases on : c = .powerOn
  · subst on; rfl
  · by_cases release : c = .resetRelease
    · subst release
      exact congrArg _ (if_neg (by simp [up]))
    · rw [exec_event on release, taken_next s _ up]

/-- What a command can do: nothing, its effect, or, for the release of a reset input held, the line reset. -/
theorem exec_cases {c : Instr} {s t : State} (h : exec c s = .next t) :
    t = s ∨ t = effect c s ∨ c = .resetRelease ∧ t = releaseReset s := by
  by_cases up : s.resetPin = false
  · rw [exec_released c up] at h; cases h; exact .inr (.inl rfl)
  · have held : s.resetPin = true := Bool.not_eq_false _ ▸ up
    by_cases on : c = .powerOn
    · subst on; cases h; exact .inr (.inl rfl)
    · by_cases release : c = .resetRelease
      · subst release
        have released : exec .resetRelease s = .next (releaseReset s) := congrArg _ (if_pos held)
        rw [released] at h; cases h; exact .inr (.inr ⟨rfl, rfl⟩)
      · rw [heldResetTakesNoEvents c s held on release] at h; cases h; exact .inl rfl

/-- Whatever every effect and the line reset keep, and the queue of waiting commands does not enter, every step
keeps. -/
theorem step_keeps {I : State → Prop} (queue : ∀ s l, I s → I { s with pending := l })
    (event : ∀ c s, I s → I (effect c s)) (line : ∀ s, I s → I (releaseReset s)) {s t : State} (hs : I s)
    (h : step s = .next t) : I t := by
  cases waiting : s.pending with
  | nil => rw [stepRunsTheFrontCommand.2 s waiting] at h; cases h; exact hs
  | cons c rest =>
    rw [stepRunsTheFrontCommand.1 s c rest waiting] at h
    obtain rfl | rfl | ⟨_, rfl⟩ := exec_cases h
    · exact queue s rest hs
    · exact event c _ (queue s rest hs)
    · exact line _ (queue s rest hs)

section
variable {N : List Block}

theorem takeRequestIf_touches {test : Frame → Bool} {k : State → Port → Frame → State} (hl : [Block.lu] ⊆ N)
    (hk : ∀ s p f, unchangedBut N s (k s p f)) (s : State) : unchangedBut N s (takeRequestIf test k s) := by
  unfold takeRequestIf
  split
  · split
    · exact unchangedBut.refl _ _
    · exact (((popRx_touches s .mgmt).mono hl).trans (hk _ _ _)).ite (unchangedBut.refl _ _)
  · exact unchangedBut.refl _ _

theorem takeMarkIf_touches {test : Frame → Bool} {k : State → Port → Frame → State} (hl : [Block.lu] ⊆ N)
    (hk : ∀ s p f, unchangedBut N s (k s p f)) (s : State) : unchangedBut N s (takeMarkIf test k s) := by
  unfold takeMarkIf
  split
  · exact unchangedBut.refl _ _
  · exact (((popRx_touches s .mark).mono hl).trans (hk _ _ _)).ite (unchangedBut.refl _ _)

theorem takeScan_touches {cls : Nat} {k : State → Frame → State} (hl : [Block.lu] ⊆ N) (hs : [Block.sa] ⊆ N)
    (hk : ∀ s f, unchangedBut N s (k s f)) (s : State) : unchangedBut N s (takeScan cls k s) := by
  unfold takeScan
  split
  · exact unchangedBut.refl _ _
  · exact ((((popRx_touches s .scan).mono hl).trans (hk _ _)).next (updSa_touches _ _) hs).ite
      (unchangedBut.refl _ _)

theorem takeNotice_touches {cls fixed : Nat} {k : State → List Byte → State} (hl : [Block.lu] ⊆ N)
    (hb : [Block.bos] ⊆ N) (hk : ∀ s l, unchangedBut N s (k s l)) (s : State) :
    unchangedBut N s (takeNotice cls fixed k s) := by
  unfold takeNotice
  split
  · exact unchangedBut.refl _ _
  · exact ((((popRx_touches s .sorter).mono hl).next (updBos_touches _ _) hb).ite
      (((popRx_touches s .sorter).mono hl).trans (hk _ _))).ite (unchangedBut.refl _ _)

theorem mgmtAccess_touches {k : State → Access → InExec → State} (hk : ∀ s a e, unchangedBut N s (k s a e))
    (s : State) : unchangedBut N s (mgmtAccess k s) := by
  unfold mgmtAccess
  split
  · exact (hk _ _ _).ite (unchangedBut.refl _ _)
  · exact unchangedBut.refl _ _

end

/-! ### The chain -/

theorem advance_touches (s : State) (synthesized : Bool) :
    unchangedBut [.ct, .ring, .sa, .lu, .handed, .freeCount] s (advance s synthesized) :=
  (((((updCt_touches s _).mono (by decide)).next (freeBuffer_touches _ _) (by decide)).next
    (setSlot_touches _ _ _) (by decide)).next (enqueue_touches _ _ _) (by decide)).next
    (updHanded_touches _ _) (by decide)

theorem countEvent_touches (s : State) :
    unchangedBut [.ct, .ring, .sa, .lu, .handed, .freeCount] s (countEvent s) := by
  have counted : unchangedBut [.ct, .ring, .sa, .lu, .handed, .freeCount] s
      (handSwitchByCount (s.updCt fun c => { c with c := c.c + 1 })) :=
    ((updCt_touches s _).mono (by decide)).trans ((((updCt_touches _ _).mono (by decide)).next
      (updHanded_touches _ _) (by decide)).ite (unchangedBut.refl _ _))
  exact (((counted.next (updCt_touches _ _) (by decide)).next (raiseAlert_touches _ _) (by decide)).trans
    (advance_touches _ _)).ite counted

theorem indexEvent_touches (s : State) :
    unchangedBut [.ct, .ring, .sa, .lu, .handed, .freeCount] s (indexEvent s) :=
  ((updCt_touches s _).mono (by decide)).ite
    (((((updCt_touches s _).mono (by decide)).next (raiseAlert_touches _ _) (by decide)).trans
      (advance_touches _ _)).ite (advance_touches s _))

/-! ### Scan assembly -/

theorem endPartial_touches (s : State) (lug : LugSeq) : unchangedBut [.ring, .opt, .tm] s (endPartial s lug) := by
  have ended := (updSlot_touches s lug fun sl => { sl with scan := .some .partialScan, partialFlag := true }).mono
    (N := [.ring, .opt, .tm]) (by decide)
  unfold endPartial
  dsimp only
  split
  · exact (ended.trans (offerLug_touches _ _)).ite ended
  · exact ended.next (updSlot_touches _ _ _) (by decide)

theorem completeIfClosed_touches (s : State) (lug : LugSeq) :
    unchangedBut [.ring, .opt, .tm] s (completeIfClosed s lug) := by
  have ended := (updSlot_touches s lug fun sl => { sl with scan := .some .complete }).mono
    (N := [.ring, .opt, .tm]) (by decide)
  exact ((endPartial_touches s lug).ite ((ended.trans (offerLug_touches _ _)).ite ended)).ite (unchangedBut.refl _ _)

theorem scanDeadline_touches (s : State) (lug : LugSeq) : unchangedBut [.ring, .opt, .tm] s (scanDeadline s lug) :=
  (endPartial_touches s lug).ite (unchangedBut.refl _ _)

theorem openBoard_touches (s : State) (f : Frame) : unchangedBut [.ring, .sa, .opt, .tm] s (openBoard s f) := by
  have counts {t : State} (g : ScanCounts → ScanCounts) : unchangedBut [.ring, .sa, .opt, .tm] t (t.updScanCounts g) :=
    (updSa_touches t _).mono (by decide)
  refine (counts _).ite <| (counts _).ite <| (counts _).ite <| (counts _).ite <| (counts _).ite ?_
  split
  · exact ((updSlot_touches s _ _).mono (by decide)).trans (counts _)
  · exact (((updSlot_touches s _ _).mono (by decide)).next (updSa_touches _ _) (by decide)).next
      (completeIfClosed_touches _ _) (by decide)

theorem admitScan_touches {N : List Block} {k : State → State} (hs : [Block.sa] ⊆ N)
    (hk : ∀ s, unchangedBut N s (k s)) (s : State) (lug : LugSeq) (head : Nat) :
    unchangedBut N s (admitScan s lug head k) := by
  have counts (g : ScanCounts → ScanCounts) : unchangedBut N s (s.updScanCounts g) := (updSa_touches s _).mono hs
  exact (counts _).ite <| (counts _).ite <| (counts _).ite (hk s)

theorem admitProfile_touches {k : State → State} (hk : ∀ s, unchangedBut [.sa] s (k s)) (s : State) (lug : LugSeq)
    (head : Nat) : unchangedBut [.sa] s (admitProfile s lug head k) :=
  admitScan_touches (by decide) (fun s => (updSa_touches s _).ite (hk s)) s lug head

theorem setWindow_touches (s : State) (f : Frame) : unchangedBut [.sa] s (setWindow s f) :=
  unchangedBut.ite (c := _ = true) (updSa_touches s _) (updSa_touches s _)

theorem continueWindow_touches (s : State) (f : Frame) : unchangedBut [.sa] s (continueWindow s f) := by
  unfold continueWindow
  dsimp only
  split
  · exact updSa_touches s _
  · split <;> exact updSa_touches s _

theorem takeProfile_touches (s : State) (f : Frame) : unchangedBut [.sa] s (takeProfile s f) :=
  (updSa_touches s _).ite (admitProfile_touches (fun s => setWindow_touches s f) s _ _)

theorem takeProfileCont_touches (s : State) (f : Frame) : unchangedBut [.sa] s (takeProfileCont s f) :=
  (updSa_touches s _).ite (admitProfile_touches (fun s => continueWindow_touches s f) s _ _)

theorem closeHead_touches (s : State) (lug : LugSeq) (head : Nat) :
    unchangedBut [.ring, .sa, .opt, .tm] s (closeHead s lug head) :=
  (((updSa_touches s _).mono (by decide)).ite
    (((updSlot_touches s lug _).mono (by decide)).next (completeIfClosed_touches _ _) (by decide))).ite
    ((updSa_touches s _).mono (by decide))

theorem takeClose_touches (s : State) (f : Frame) : unchangedBut [.ring, .sa, .opt, .tm] s (takeClose s f) :=
  ((updSa_touches s _).mono (by decide)).ite
    (admitScan_touches (by decide) (fun s => closeHead_touches s _ _) s _ _)

theorem scanOverflow_touches (s : State) : unchangedBut [.ring, .sa, .lu, .freeCount] s (scanOverflow s) :=
  (((updSa_touches s _).mono (by decide)).next (updRing_touches _ _) (by decide)).next
    (raiseAlert_touches _ _) (by decide)

/-! ### The Trim Optimizer -/

theorem giveJobWord_touches (s : State) (r : CheckResult) : unchangedBut [.opt] s (giveJobWord s r) :=
  updOpt_touches s _

theorem discardResult_touches (s : State) (lug : LugSeq) : unchangedBut [.ring, .opt] s (discardResult s lug) := by
  have counted : unchangedBut [.ring, .opt] s (s.updOptCounts fun c => { c with discarded := satInc c.discarded }) :=
    (updOpt_touches s _).mono (by decide)
  unfold discardResult
  dsimp only
  split
  · exact counted.ite ((counted.next (updSlot_touches _ _ _) (by decide)).trans (judgeOffer_touches _ _))
  · exact (counted.next (updSlot_touches _ _ _) (by decide)).trans (judgeOffer_touches _ _)

theorem jobOutcome_touches (s : State) (job : Job) : unchangedBut [.ring, .opt] s (jobOutcome s job) := by
  have ends (f : Slot → Slot) (g : OptCounts → OptCounts) :
      unchangedBut [.ring, .opt] s ((updSlot s job.lug f).updOptCounts g) :=
    ((updSlot_touches s _ _).mono (by decide)).next (updOpt_touches _ _) (by decide)
  exact ((updOpt_touches s _).mono (by decide)).ite
    ((discardResult_touches s job.lug).ite ((ends _ _).ite (ends _ _)))

theorem optimizerLocks_touches (s : State) (lug : LugSeq) :
    unchangedBut [.ring, .opt, .tm] s (optimizerLocks s lug) :=
  (((updOpt_touches s _).mono (by decide)).trans (startJob_touches _)).ite
    ((((abandonJob_touches s).mono (by decide)).trans (startJob_touches _)).ite (startJob_touches s))

/-! ### Grader marks -/

theorem applyUnrejected_touches (s : State) (lug : LugSeq) :
    unchangedBut [.ring, .opt, .tm] s (applyUnrejected s lug) :=
  (((updSlot_touches s lug _).mono (by decide)).trans (offerLug_touches _ _)).ite
    ((updSlot_touches s lug _).mono (by decide))

theorem applyGradeCut_touches (s : State) (lug : LugSeq) (f : Slot → Slot) :
    unchangedBut [.ring, .opt, .tm] s (applyGradeCut s lug f) :=
  (((updSlot_touches s lug _).mono (by decide)).next (updSlot_touches _ lug _) (by decide)).ite
    (((updSlot_touches s lug _).mono (by decide)).trans (applyUnrejected_touches _ _))

theorem applyGrade_touches (s : State) (lug : LugSeq) (cap : Nat) :
    unchangedBut [.ring, .opt, .tm] s (applyGrade s lug cap) := applyGradeCut_touches s lug _

theorem applyCut_touches (s : State) (lug : LugSeq) (station : Nat) :
    unchangedBut [.ring, .opt, .tm] s (applyCut s lug station) := applyGradeCut_touches s lug _

theorem applyReject_touches (s : State) (lug : LugSeq) : unchangedBut [.ring, .opt] s (applyReject s lug) :=
  ((updSlot_touches s lug _).mono (by decide)).next (updOpt_touches _ _) (by decide)

theorem clearReject_touches (s : State) (lug : LugSeq) :
    unchangedBut [.ring, .opt, .tm] s (clearReject s lug) := by
  have cleared : unchangedBut [.ring, .opt, .tm] s (updSlot s lug fun sl => { sl with decision := .none }) :=
    (updSlot_touches s lug _).mono (by decide)
  have sets (f : Slot → Slot) := cleared.next (updSlot_touches _ lug f) (by decide)
  exact (sets _).ite <| (sets _).ite <| (sets _).ite <| (sets _).trans (offerLug_touches _ _)

theorem applyClear_touches (s : State) (lug : LugSeq) : unchangedBut [.ring, .opt, .tm] s (applyClear s lug) :=
  (((updSlot_touches s lug _).mono (by decide)).trans (clearReject_touches _ _)).ite
    (((updSlot_touches s lug _).mono (by decide)).trans (applyUnrejected_touches _ _))

theorem takeMark_touches {N : List Block} {effect : State → State} {s : State} (p : Port) (f : Frame)
    (hr : [.mh, .tu, .lu, .freeCount] ⊆ N) (he : unchangedBut N s (effect s)) :
    unchangedBut N s (takeMark s p f effect) :=
  (he.ite (unchangedBut.refl _ _)).next (replyMark_touches _ _ _ _) hr

theorem answerDropped_touches (s : State) (p : Port) (f : Frame) :
    unchangedBut [.mh, .tu, .lu, .freeCount] s (answerDropped s p f) :=
  (((enqueue_touches s p _).mono (by decide)).next (updMh_touches _ _) (by decide)).next
    (report_touches _ _) (by decide)

/-! ### Commitment and sorting -/

theorem commitPiece_touches (s : State) (lug : LugSeq) (d : Decision) (p : PieceData) (stale : Bool) :
    unchangedBut [.ring, .bos, .tu, .lu, .freeCount] s (commitPiece s lug d p stale) := by
  have asked := (askBins_touches (p.chosen.toList ++ p.alternate.toList) s).mono
    (N := [.ring, .bos, .tu, .lu, .freeCount]) (by decide)
  unfold commitPiece
  refine unchangedBut.next (unchangedBut.next ?_ (updBos_touches _ _) (by decide)) (writeCommit_touches _ _ _ _ _)
    (by decide)
  split
  · rename_i h; rw [h] at asked; exact asked
  · rename_i h; rw [h] at asked; exact asked.next (storeEvent_touches _ _) (by decide)

theorem commitToCatch_touches (s : State) (lug : LugSeq) (kind : CommitKind) (d : Option Decision) (stale : Bool) :
    unchangedBut [.ring, .bos, .tu, .lu, .freeCount] s (commitToCatch s lug kind d stale) :=
  ((storeEvent_touches s _).mono (by decide)).next (writeCommit_touches _ _ _ _ _) (by decide)

theorem commitBypass_touches (s : State) (lug : LugSeq) :
    unchangedBut [.ring, .bos, .tu, .lu, .freeCount] s (commitBypass s lug) :=
  ((storeEvent_touches s _).mono (by decide)).next (writeCommit_touches _ _ _ _ _) (by decide)

theorem commitRecycle_touches (s : State) (lug : LugSeq) (cause : Option RecycleCause) (stale : Bool) :
    unchangedBut [.ring, .tu, .lu, .freeCount] s (commitRecycle s lug cause stale) :=
  ((updSlot_touches s lug _).mono (by decide)).trans (writeCommit_touches _ _ _ _ _)

theorem commitDecision_touches (s : State) (lug : LugSeq) (d : Decision) (stale : Bool) :
    unchangedBut [.ring, .bos, .tu, .lu, .freeCount] s (commitDecision s lug d stale) := by
  unfold commitDecision
  split
  · exact commitPiece_touches s lug d _ stale
  · exact commitToCatch_touches s lug _ _ stale
  · exact commitToCatch_touches s lug _ _ stale

theorem commitRegraded_touches (s : State) (lug : LugSeq) (d : Decision) (r : CheckResult) :
    unchangedBut [.ring, .bos, .tu, .lu, .freeCount] s (commitRegraded s lug d r) :=
  ((updSlot_touches s lug _).mono (by decide)).trans (commitDecision_touches _ _ _ _)

theorem beginRegrade_touches (s : State) (lug : LugSeq) (d : Decision) :
    unchangedBut [.ring, .cu, .bos, .tu, .tm, .lu, .freeCount] s (beginRegrade s lug d) := by
  unfold beginRegrade
  split
  · exact ((updCu_touches s _).mono (by decide)).next (requestCommit_touches _ _) (by decide)
  · exact (commitRegraded_touches s lug d _).mono (by decide)

theorem judgeLock_touches (s : State) (lug : LugSeq) :
    unchangedBut [.ring, .sa, .cu, .bos, .tu, .tm, .lu, .freeCount] s (judgeLock s lug) := by
  have freed := (freeBuffer_touches s lug).mono (N := [.ring, .sa, .cu, .bos, .tu, .tm, .lu, .freeCount]) (by decide)
  unfold judgeLock
  dsimp only
  split
  · exact freed
  · exact freed.next (commitBypass_touches _ _) (by decide)
  · exact freed.next (commitRecycle_touches _ _ _ _) (by decide)
  · exact freed.next (commitToCatch_touches _ _ _ _ _) (by decide)
  · exact freed.next (commitDecision_touches _ _ _ _) (by decide)
  · exact freed.next (beginRegrade_touches _ _ _) (by decide)

theorem lockArrives_touches (s : State) (lug : LugSeq) :
    unchangedBut [.ring, .sa, .cu, .bos, .tu, .tm, .lu, .freeCount] s (lockArrives s lug) :=
  ((updCu_touches s _).mono (by decide)).ite (judgeLock_touches s lug)

theorem takeHeldLocks_touches : ∀ (held : List LugSeq) (s : State),
    unchangedBut [.ring, .sa, .cu, .bos, .tu, .tm, .lu, .freeCount] s (takeHeldLocks held s)
  | [], s => unchangedBut.refl _ s
  | lug :: rest, s =>
    ((updCu_touches s _).mono (by decide)).ite ((judgeLock_touches s lug).trans (takeHeldLocks_touches rest _))

theorem takeHeldSwitch_touches (s : State) : unchangedBut [.cu] s (takeHeldSwitch s) := by
  unfold takeHeldSwitch
  split
  · exact unchangedBut.refl _ _
  · exact (updCu_touches s _).trans (updCu_touches _ _)

theorem completeCommit_touches (s : State) (fl : InFlight) (r : CheckResult) :
    unchangedBut [.ring, .sa, .cu, .bos, .tu, .tm, .lu, .freeCount] s (completeCommit s fl r) :=
  ((((updCu_touches s _).mono (by decide)).next (commitRegraded_touches _ _ _ _) (by decide)).trans
    (takeHeldLocks_touches _ _)).next (takeHeldSwitch_touches _) (by decide)

theorem switchArrives_touches (s : State) (lug : LugSeq) : unchangedBut [.cu] s (switchArrives s lug) :=
  (updCu_touches s _).ite ((updCu_touches s _).trans (updCu_touches _ _))

theorem retire_touches (s : State) (lug : LugSeq) : unchangedBut [.ring, .sa] s (retire s lug) :=
  (freeBuffer_touches s lug).next (updSlot_touches _ _ _) (by decide)

theorem sortArrives_touches (s : State) (lug : LugSeq) :
    unchangedBut [.ring, .sa, .bos, .tu, .lu, .freeCount] s (sortArrives s lug) := by
  unfold sortArrives
  split
  · exact (retire_touches s lug).mono (by decide)
  · unfold sortCommitted
    refine unchangedBut.next (unchangedBut.next (unchangedBut.next ?_ (enqueue_touches _ _ _) (by decide))
      (report_touches _ _) (by decide)) (retire_touches _ _) (by decide)
    split
    · exact unchangedBut.refl _ _
    · exact (storeEvent_touches s _).mono (by decide)

/-! ### Sorter notices -/

theorem binEmptied_touches (s : State) (body : List Byte) :
    unchangedBut [.bos, .lu, .freeCount] s (binEmptied s body) :=
  unchangedBut.ite (c := 47 < _) ((updBos_touches s _).mono (by decide)) (storeEvent_touches s _)

theorem binService_touches (s : State) (body : List Byte) :
    unchangedBut [.bos, .lu, .freeCount] s (binService s body) := by
  have counts (g : StoreCounts → StoreCounts) : unchangedBut [.bos, .lu, .freeCount] s (s.updStoreCounts g) :=
    (updBos_touches s _).mono (by decide)
  exact (counts _).ite <| (counts _).ite <| (storeEvent_touches s _).ite <|
    (storeEvent_touches s _).ite (counts _)

/-! ### Table memory -/

theorem visitWord_touches (s : State) (i : Nat) : unchangedBut [.tm, .lu, .freeCount] s (visitWord s i) := by
  unfold visitWord
  refine unchangedBut.next ?_ (updTm_touches _ _) (by decide)
  split
  · exact (noteRead_touches s _ i).next (updTm_touches _ _) (by decide)
  · exact noteRead_touches s _ i
  · exact noteRead_touches s _ i

theorem beginWork_touches (s : State) (p : Port) (f : Frame) (w : Work) (i : Nat) (k : AccessKind) :
    unchangedBut [.tm, .lu, .mg, .freeCount] s (beginWork s p f w i k) :=
  ((updMg_touches s _).mono (by decide)).next (requestMgmt_touches _ _ _) (by decide)

theorem continueWork_touches (s : State) (e : InExec) (w : Work) (i : Nat) (k : AccessKind) :
    unchangedBut [.tm, .lu, .mg, .freeCount] s (continueWork s e w i k) :=
  ((updMg_touches s _).mono (by decide)).next (requestMgmt_touches _ _ _) (by decide)

theorem endWork_touches (s : State) (e : InExec) (r : Result) (data : List Byte) :
    unchangedBut [.tm, .lu, .mg, .freeCount] s (endWork s e r data) :=
  ((updMg_touches s _).mono (by decide)).next (reply_touches _ _ _ _ _) (by decide)

theorem tableRead_touches (s : State) (p : Port) (f : Frame) :
    unchangedBut [.tm, .lu, .mg, .freeCount] s (tableRead s p f) := by
  unfold tableRead
  split
  · exact (reply_touches s _ _ _ _).mono (by decide)
  · split
    · exact (reply_touches s _ _ _ _).mono (by decide)
    · exact beginWork_touches _ _ _ _ _ _

theorem tableWrite_touches (s : State) (p : Port) (f : Frame) :
    unchangedBut [.tm, .lu, .mg, .freeCount] s (tableWrite s p f) := by
  unfold tableWrite
  split
  · exact (reply_touches s _ _ _ _).mono (by decide)
  · split
    · exact (reply_touches s _ _ _ _).mono (by decide)
    · exact beginWork_touches _ _ _ _ _ _

theorem tableWriteByte_touches (s : State) (p : Port) (f : Frame) :
    unchangedBut [.tm, .lu, .mg, .freeCount] s (tableWriteByte s p f) := by
  unfold tableWriteByte
  split
  · split
    · exact (reply_touches s _ _ _ _).mono (by decide)
    · exact beginWork_touches _ _ _ _ _ _
  · exact (reply_touches s _ _ _ _).mono (by decide)

theorem setSelect_touches (s : State) (p : Port) (f : Frame) :
    unchangedBut [.tm, .lu, .mg, .freeCount] s (setSelect s p f) := by
  unfold setSelect
  split
  · exact (reply_touches s _ _ _ _).mono (by decide)
  · exact (beginWork_touches _ _ _ _ _ _).ite ((reply_touches s _ _ _ _).mono (by decide))

/-- A management read leaves only Table Memory and the Link Unit different. -/
theorem endRead_touches (s : State) (who : Requester) (i : Nat) :
    unchangedBut [.tm, .lu, .freeCount] s (endAccess (noteRead s who i)) :=
  (noteRead_touches s who i).next (endAccess_touches _) (by decide)

theorem readAccess_touches (s : State) (a : Access) (e : InExec) :
    unchangedBut [.tm, .lu, .mg, .freeCount] s (readAccess s a e) := by
  have read := (endRead_touches s .management a.index).mono (N := [.tm, .lu, .mg, .freeCount]) (by decide)
  unfold readAccess
  split
  · dsimp only
    split
    · exact read.trans (endWork_touches _ _ _ _)
    all_goals exact (read.trans (endWork_touches _ _ _ _)).ite (read.trans (continueWork_touches _ _ _ _ _))
  all_goals exact unchangedBut.refl _ _

theorem writeAccess_touches (s : State) (a : Access) (e : InExec) :
    unchangedBut [.tm, .lu, .mg, .freeCount] s (writeAccess s a e) := by
  unfold writeAccess
  split
  · have stored (f : TableMemory → TableMemory) : unchangedBut [.tm, .lu, .mg, .freeCount] s (endAccess (s.updTm f)) :=
      ((updTm_touches s f).trans (endAccess_touches _)).mono (by decide)
    exact ((stored _).trans (endWork_touches _ _ _ _)).ite ((stored _).trans (continueWork_touches _ _ _ _ _))
  all_goals exact unchangedBut.refl _ _

theorem byteAccess_touches (s : State) (a : Access) (e : InExec) :
    unchangedBut [.tm, .lu, .mg, .freeCount] s (byteAccess s a e) := by
  unfold byteAccess
  split
  · have noted := (noteRead_touches s .management a.index).mono (N := [.tm, .lu, .mg, .freeCount]) (by decide)
    have stored (f : TableMemory → TableMemory) :=
      (noted.next (updTm_touches _ f) (by decide)).next (endAccess_touches _) (by decide)
    dsimp only
    split
    · exact (noted.next (endAccess_touches _) (by decide)).trans (endWork_touches _ _ _ _)
    all_goals exact ((stored _).trans (endWork_touches _ _ _ _)).ite ((stored _).trans (continueWork_touches _ _ _ _ _))
  all_goals exact unchangedBut.refl _ _

theorem finishSelect_touches (s : State) (e : InExec) (sid : SetId) (words : List Word) :
    unchangedBut [.sa, .tm, .lu, .mg, .freeCount] s (finishSelect s e sid words) :=
  (((updTm_touches s _).mono (by decide)).next (updSa_touches _ _) (by decide)).next
    (endWork_touches _ _ _ _) (by decide)

theorem copyAccess_touches (s : State) (a : Access) (e : InExec) :
    unchangedBut [.sa, .tm, .lu, .mg, .freeCount] s (copyAccess s a e) := by
  have read := (endRead_touches s .management a.index).mono (N := [.sa, .tm, .lu, .mg, .freeCount]) (by decide)
  unfold copyAccess
  split
  · dsimp only
    split
    · exact read.next (endWork_touches _ _ _ _) (by decide)
    all_goals
      exact (read.trans (finishSelect_touches _ _ _ _)).ite
        (read.next (continueWork_touches _ _ _ _ _) (by decide))
  all_goals exact unchangedBut.refl _ _

/-! ### Management requests -/

theorem mapWrite_touches (s : State) (p : Port) (f : Frame) :
    unchangedBut [.tm, .lu, .freeCount] s (mapWrite s p f) := by
  have refused (r : Result) : unchangedBut [.tm, .lu, .freeCount] s (reply s p f r []) :=
    (reply_touches s p f r []).mono (by decide)
  unfold mapWrite
  dsimp only
  split
  · exact refused _
  · exact (refused _).ite <| (refused _).ite <|
      ((updTm_touches s _).mono (by decide)).next (reply_touches _ _ _ _ _) (by decide)

theorem clearRing_touches (s : State) :
    unchangedBut [.ring, .sa, .opt, .cu, .bos, .tu, .tm, .lu, .freeCount] s (clearRing s) :=
  (((((((((storeEvent_touches s _).mono (by decide)).next (updSa_touches _ _) (by decide)).next
    (abandonJob_touches _) (by decide)).next (updOpt_touches _ _) (by decide)).next
    (updCu_touches _ _) (by decide)).next (updTm_touches _ _) (by decide)).next
    (updRing_touches _ _) (by decide))).next (report_touches _ _) (by decide)

theorem changeMode_touches (s : State) (m : LineMode) :
    unchangedBut [.ct, .ring, .sa, .opt, .cu, .bos, .tu, .tm, .lu, .freeCount] s (changeMode s m).2 := by
  have sets {t : State} (m : LineMode) :
      unchangedBut [.ct, .ring, .sa, .opt, .cu, .bos, .tu, .tm, .lu, .freeCount] t (setMode t m) :=
    (updCt_touches t _).mono (by decide)
  have clears := ((clearRing_touches s).mono (by decide)).trans (sets (t := clearRing s) .stop)
  have runs : unchangedBut [.ct, .ring, .sa, .opt, .cu, .bos, .tu, .tm, .lu, .freeCount] s
      (if s.tm.active.isSome then (Result.done, setMode s .run) else (.noSet, s)).2 := by
    split
    · exact sets .run
    · exact unchangedBut.refl _ _
  unfold changeMode
  split
  · exact unchangedBut.refl _ _
  · exact unchangedBut.refl _ _
  · exact unchangedBut.refl _ _
  · exact clears
  · exact clears
  · exact sets .bypass
  · exact sets .bypass
  · exact runs
  · exact runs

theorem modeRequest_touches (s : State) (p : Port) (f : Frame) :
    unchangedBut [.ct, .ring, .sa, .opt, .cu, .bos, .tu, .tm, .lu, .freeCount] s (modeRequest s p f) := by
  unfold modeRequest
  split
  · exact (reply_touches s p f _ _).mono (by decide)
  · exact (changeMode_touches s _).next (reply_touches _ p f _ _) (by decide)

theorem geometryWrite_touches (s : State) (p : Port) (f : Frame) :
    unchangedBut [.settings, .lu, .freeCount] s (geometryWrite s p f) := by
  have answers (r : Result) : unchangedBut [.settings, .lu, .freeCount] s (reply s p f r []) :=
    (reply_touches s p f r []).mono (by decide)
  exact (answers _).ite <| (answers _).ite <|
    (((updSettings_touches s _).mono (by decide)).next (reply_touches _ _ _ _ _) (by decide)).ite (answers _)

theorem filterWrite_touches (s : State) (p : Port) (f : Frame) :
    unchangedBut [.lu, .freeCount] s (filterWrite s p f) := by
  refine (reply_touches s p f _ _).ite ?_
  split
  · exact reply_touches s p f _ _
  · exact ((updLu_touches s _).mono (by decide)).trans (reply_touches _ p f _ _)

theorem binWrite_touches (s : State) (p : Port) (f : Frame) :
    unchangedBut [.bos, .lu, .freeCount] s (binWrite s p f) :=
  ((reply_touches s p f _ _).mono (by decide)).ite
    ((((storeEvent_touches s _).next (updBos_touches _ _) (by decide)).next (reply_touches _ p f _ _) (by decide)).ite
      ((storeEvent_touches s _).next (reply_touches _ p f _ _) (by decide)))

theorem binRead_touches (s : State) (p : Port) (f : Frame) : unchangedBut [.lu, .freeCount] s (binRead s p f) :=
  (reply_touches s p f _ _).ite (reply_touches s p f _ _)

theorem quotaSet_touches (s : State) (p : Port) (f : Frame) :
    unchangedBut [.bos, .lu, .freeCount] s (quotaSet s p f) :=
  ((reply_touches s p f _ _).mono (by decide)).ite
    (((updBos_touches s _).mono (by decide)).next (reply_touches _ p f _ _) (by decide))

theorem quotaRead_touches (s : State) (p : Port) (f : Frame) :
    unchangedBut [.lu, .freeCount] s (quotaRead s p f) :=
  (reply_touches s p f _ _).ite (reply_touches s p f _ _)

theorem tallyRead_touches (s : State) (p : Port) (f : Frame) :
    unchangedBut [.lu, .freeCount] s (tallyRead s p f) := by
  unfold tallyRead
  dsimp only
  split
  · exact reply_touches s p f _ _
  · refine (reply_touches s p f _ _).ite <| (reply_touches s p f _ _).ite ?_
    split <;> exact reply_touches s p f _ _

theorem tallyClose_touches (s : State) (p : Port) (f : Frame) :
    unchangedBut [.tu, .lu, .freeCount] s (tallyClose s p f) :=
  ((reply_touches s p f _ _).mono (by decide)).ite
    (((updTu_touches s _).mono (by decide)).next (reply_touches _ p f _ _) (by decide))

theorem statusRead_touches (s : State) (p : Port) (f : Frame) :
    unchangedBut [.tm, .lu, .freeCount] s (statusRead s p f) := by
  unfold statusRead
  split
  · exact (reply_touches s p f _ _).mono (by decide)
  · exact ((updTm_touches s _).mono (by decide)).next (reply_touches _ p f _ _) (by decide)

theorem lugRead_touches (s : State) (p : Port) (f : Frame) : unchangedBut [.lu, .freeCount] s (lugRead s p f) :=
  (reply_touches s p f _ _).ite (reply_touches s p f _ _)

theorem refuseBody_touches (s : State) (p : Port) (f : Frame) :
    unchangedBut [.lu, .mg, .freeCount] s (refuseBody s p f) :=
  ((updMg_touches s _).mono (by decide)).next (reply_touches _ p f _ _) (by decide)

theorem misrouted_touches (s : State) (q : QueueId) : unchangedBut [.sa, .lu] s (misrouted s q) := by
  have counted : unchangedBut [.sa, .lu] s ((popRx s q).updLu fun l => { l with misrouted := l.misrouted.inc q }) :=
    ((popRx_touches s q).mono (by decide)).next (updLu_touches _ _) (by decide)
  unfold misrouted
  split
  · exact unchangedBut.refl _ _
  · exact (unchangedBut.refl _ _).ite ((counted.next (updSa_touches _ _) (by decide)).ite counted)

/-! ### Resets -/

theorem resetBlocks_touches (s : State) (starting : Bool) :
    unchangedBut [.ct, .ring, .sa, .opt, .mh, .cu, .bos, .mg, .handed] s (resetBlocks s starting) := by
  intro b hb
  cases b with
  | settings | tu | tm | lu | resetPin | freeCount | pending => rfl
  | ct | ring | sa | opt | mh | cu | bos | mg | handed => exact absurd (by decide) hb

theorem softResetRequest_touches (s : State) (p : Port) (f : Frame) :
    unchangedBut [.ct, .ring, .sa, .opt, .mh, .cu, .bos, .tu, .tm, .lu, .mg, .handed, .freeCount] s
      (softResetRequest s p f) :=
  (((((resetBlocks_touches s false).mono (by decide)).next (updTm_touches _ _) (by decide)).next
    (report_touches _ _) (by decide)).next (updLu_touches _ _) (by decide)).next (reply_touches _ p f _ _) (by decide)

theorem powerOn_touches (s : State) : unchangedBut (touches .powerOn) s (powerOn s) := by
  intro b hb
  cases b with
  | resetPin | freeCount | pending => rfl
  | settings | ct | ring | sa | opt | mh | cu | bos | tu | tm | lu | mg | handed
    => exact absurd (by decide) hb

theorem releaseReset_touches (s : State) : unchangedBut (touches .resetRelease) s (releaseReset s) := by
  intro b hb
  cases b with
  | freeCount | pending => rfl
  | settings | ct | ring | sa | opt | mh | cu | bos | tu | tm | lu | mg | resetPin | handed
    => exact absurd (by decide) hb

theorem endCutAccess_touches (s : State) : unchangedBut [.tm, .freeCount] s (endCutAccess s) := by
  unfold endCutAccess
  split
  · exact unchangedBut.refl _ _
  · intro b hb
    cases b with
    | settings | ct | ring | sa | opt | mh | cu | bos | tu | lu | mg | resetPin | handed | pending => rfl
    | tm | freeCount => exact absurd (by decide) hb

theorem assertReset_touches (s : State) : unchangedBut (touches .resetAssert) s (assertReset s) := by
  have cut : unchangedBut (touches .resetAssert) s (endCutAccess (cutPort (cutPort s .U) .D)) :=
    (((updPort_touches s .U _).trans (updPort_touches _ .D _)).mono (by decide)).next (endCutAccess_touches _)
      (by decide)
  refine cut.trans ?_
  intro b hb
  cases b with
  | settings | ct | ring | sa | opt | mh | bos | tu | mg | handed | pending => rfl
  | cu | tm | lu | resetPin | freeCount => exact absurd (by decide) hb

theorem sweepEnds_touches (s : State) : unchangedBut [.ct, .tm] s (sweepEnds s) :=
  ((updTm_touches s _).mono (by decide)).next (updCt_touches _ _) (by decide)

/-! ### Every command -/

theorem takeDeadline_touches (s : State) : unchangedBut (touches .scanDeadline) s (takeDeadline s) := by
  unfold takeDeadline; split
  · exact unchangedBut.refl _ _
  · exact ((updHanded_touches s _).mono (by decide)).next (scanDeadline_touches _ _) (by decide)

theorem takeScanOverflow_touches (s : State) : unchangedBut (touches .scanQueueOverflow) s (takeScanOverflow s) := by
  unfold takeScanOverflow; split
  · exact unchangedBut.refl _ _
  · exact ((updHanded_touches s _).mono (by decide)).next (scanOverflow_touches _) (by decide)

theorem endOptRead_touches (s : State) : unchangedBut (touches .optimizerRead) s (endOptRead s) := by
  unfold endOptRead; split
  · have read := (endRead_touches s .optimizer ‹Access›.index).mono (N := touches .optimizerRead) (by decide)
    exact (((read.next (giveJobWord_touches _ _) (by decide)).next (askJobWord_touches _) (by decide)).ite read).ite
      (unchangedBut.refl _ _)
  · exact unchangedBut.refl _ _

theorem completeJob_touches (s : State) : unchangedBut (touches .jobCompletion) s (completeJob s) := by
  unfold completeJob; split
  · exact unchangedBut.refl _ _
  · exact ((((updOpt_touches s _).mono (by decide)).next (jobOutcome_touches _ _) (by decide)).trans
      (startJob_touches _)).ite (unchangedBut.refl _ _)

theorem takeOptLock_touches (s : State) : unchangedBut (touches .optimizerLock) s (takeOptLock s) := by
  unfold takeOptLock; split
  · exact unchangedBut.refl _ _
  · exact ((updHanded_touches s _).mono (by decide)).next (optimizerLocks_touches _ _) (by decide)

theorem takeMarkOverflow_touches (s : State) : unchangedBut (touches .markQueueOverflow) s (takeMarkOverflow s) := by
  unfold takeMarkOverflow; split
  · exact unchangedBut.refl _ _
  · exact ((updHanded_touches s _).mono (by decide)).next (answerDropped_touches _ _ _) (by decide)

theorem takeLock_touches (s : State) : unchangedBut (touches .lockArrival) s (takeLock s) := by
  unfold takeLock; split
  · exact unchangedBut.refl _ _
  · exact ((updHanded_touches s _).mono (by decide)).next (lockArrives_touches _ _) (by decide)

theorem endCommitRead_touches (s : State) : unchangedBut (touches .commitCompletion) s (endCommitRead s) := by
  unfold endCommitRead; split
  · have read := (endRead_touches s .commit ‹Access›.index).mono (N := touches .commitCompletion) (by decide)
    refine unchangedBut.ite (unchangedBut.ite ?_ read) (unchangedBut.refl _ _)
    split
    · exact read.next (completeCommit_touches _ _ _) (by decide)
    · exact read
  · exact unchangedBut.refl _ _

theorem takeSwitch_touches (s : State) : unchangedBut (touches .sawSwitchPoint) s (takeSwitch s) := by
  unfold takeSwitch; split
  · exact unchangedBut.refl _ _
  · exact ((updHanded_touches s _).mono (by decide)).next (switchArrives_touches _ _) (by decide)

theorem takeSort_touches (s : State) : unchangedBut (touches .sortArrival) s (takeSort s) := by
  unfold takeSort; split
  · exact unchangedBut.refl _ _
  · exact ((updHanded_touches s _).mono (by decide)).next (sortArrives_touches _ _) (by decide)

theorem expireInterval_touches (s : State) : unchangedBut (touches .scrubIntervalExpiry) s (expireInterval s) := by
  unfold expireInterval; split
  · exact unchangedBut.refl _ _
  · exact (updTm_touches s _).trans (grant_touches _)

theorem endVisit_touches (s : State) : unchangedBut (touches .scrubVisit) s (endVisit s) := by
  unfold endVisit; split
  · exact ((visitWord_touches s _).next (endAccess_touches _) (by decide)).ite (unchangedBut.refl _ _)
  · exact unchangedBut.refl _ _

theorem takeMgmtOverflow_touches (s : State) : unchangedBut (touches .mgmtQueueOverflow) s (takeMgmtOverflow s) := by
  unfold takeMgmtOverflow; split
  · exact unchangedBut.refl _ _
  · exact ((updHanded_touches s _).mono (by decide)).next (reply_touches _ _ _ _ _) (by decide)

theorem endTransmission_touches (s : State) (p : Port) : unchangedBut [.lu, .freeCount] s (endTransmission s p) := by
  unfold endTransmission; split
  · exact unchangedBut.refl _ _
  · exact ((updPort_touches s p _).mono (by decide)).trans (startTx_touches _ p)

/-- The frame of every command's effect is the blocks its row names. -/
theorem effect_touches (c : Instr) (s : State) : unchangedBut (touches c) s (effect c s) := by
  cases c with
  | encoderCount => exact countEvent_touches s
  | missingIndex => exact (countEvent_touches s).ite (unchangedBut.refl _ _)
  | lugIndex => exact indexEvent_touches s
  | scanDeadline => exact takeDeadline_touches s
  | boardOpen => exact takeScan_touches (by decide) (by decide) (fun s f => (openBoard_touches s f).mono (by decide)) s
  | profile => exact takeScan_touches (by decide) (by decide) (fun s f => (takeProfile_touches s f).mono (by decide)) s
  | profileCont =>
    exact takeScan_touches (by decide) (by decide) (fun s f => (takeProfileCont_touches s f).mono (by decide)) s
  | boardClose => exact takeScan_touches (by decide) (by decide) (fun s f => (takeClose_touches s f).mono (by decide)) s
  | scanQueueOverflow => exact takeScanOverflow_touches s
  | offer lug => exact offerLug_touches s lug
  | optimizerRead => exact endOptRead_touches s
  | jobCompletion => exact completeJob_touches s
  | optimizerLock => exact takeOptLock_touches s
  | gradeMark =>
    refine takeMarkIf_touches (by decide) (fun s p f => ?_) s
    exact takeMark_touches p f (by decide) ((applyGrade_touches s _ _).mono (by decide))
  | cutMark =>
    refine takeMarkIf_touches (by decide) (fun s p f => ?_) s
    exact takeMark_touches p f (by decide) ((applyCut_touches s _ _).mono (by decide))
  | rejectMark =>
    refine takeMarkIf_touches (by decide) (fun s p f => ?_) s
    exact takeMark_touches p f (by decide) ((applyReject_touches s _).mono (by decide))
  | clearMark =>
    refine takeMarkIf_touches (by decide) (fun s p f => ?_) s
    exact takeMark_touches p f (by decide) ((applyClear_touches s _).mono (by decide))
  | badMarkKind =>
    refine takeMarkIf_touches (by decide) (fun s p f => ?_) s
    exact takeMark_touches p f (by decide) (unchangedBut.refl _ s)
  | markQueueOverflow => exact takeMarkOverflow_touches s
  | lockArrival => exact takeLock_touches s
  | commitCompletion => exact endCommitRead_touches s
  | sawSwitchPoint => exact takeSwitch_touches s
  | sortArrival => exact takeSort_touches s
  | binEmptied => exact takeNotice_touches (by decide) (by decide) binEmptied_touches s
  | binService => exact takeNotice_touches (by decide) (by decide) binService_touches s
  | frameArrival p f =>
    exact ((updPort_touches s p _).mono (N := [.lu, .handed, .freeCount]) (by decide)).trans
      (frameArrives_touches _ p f)
  | malformedFrame p how =>
    exact ((updPort_touches s p _).mono (N := [.lu, .freeCount]) (by decide)).trans (malformedArrival_touches _ p)
  | misroutedFrame q => exact misrouted_touches s q
  | linkAliveExpiry p => exact linkExpires_touches s p
  | linkUp p sym => exact (comeUp_touches s p sym).ite (unchangedBut.refl _ _)
  | transmissionComplete p => exact endTransmission_touches s p
  | tableRead => exact takeRequestIf_touches (by decide) tableRead_touches s
  | tableWrite => exact takeRequestIf_touches (by decide) tableWrite_touches s
  | tableWriteByte => exact takeRequestIf_touches (by decide) tableWriteByte_touches s
  | tableReadAccess => exact mgmtAccess_touches readAccess_touches s
  | tableWriteAccess => exact mgmtAccess_touches writeAccess_touches s
  | byteWriteAccess => exact mgmtAccess_touches byteAccess_touches s
  | mapWrite => exact takeRequestIf_touches (by decide) mapWrite_touches s
  | setSelect => exact takeRequestIf_touches (by decide) setSelect_touches s
  | copyAccess => exact mgmtAccess_touches copyAccess_touches s
  | scrubIntervalExpiry => exact expireInterval_touches s
  | scrubVisit => exact endVisit_touches s
  | mode => exact takeRequestIf_touches (by decide) modeRequest_touches s
  | geometryWrite => exact takeRequestIf_touches (by decide) geometryWrite_touches s
  | filterWrite => exact takeRequestIf_touches (by decide) filterWrite_touches s
  | binWrite => exact takeRequestIf_touches (by decide) binWrite_touches s
  | binRead => exact takeRequestIf_touches (by decide) binRead_touches s
  | quotaSet => exact takeRequestIf_touches (by decide) quotaSet_touches s
  | quotaRead => exact takeRequestIf_touches (by decide) quotaRead_touches s
  | tallyRead => exact takeRequestIf_touches (by decide) tallyRead_touches s
  | tallyClose => exact takeRequestIf_touches (by decide) tallyClose_touches s
  | statusRead => exact takeRequestIf_touches (by decide) statusRead_touches s
  | lugRead => exact takeRequestIf_touches (by decide) lugRead_touches s
  | softReset => exact takeRequestIf_touches (by decide) softResetRequest_touches s
  | badRequest => exact takeRequestIf_touches (by decide) refuseBody_touches s
  | mgmtQueueOverflow => exact takeMgmtOverflow_touches s
  | powerOn => exact powerOn_touches s
  | sweepComplete => exact (sweepEnds_touches s).ite (unchangedBut.refl _ _)
  | resetAssert => exact assertReset_touches s
  | resetRelease => exact unchangedBut.refl _ _
  | symbolReceived p sym => exact symbolOn_touches s p sym
  | markShortBody => exact takeMarkIf_touches (by decide) (fun s _ _ => (updMh_touches s _).mono (by decide)) s

/-- A command changes nothing outside the blocks of its row, whatever becomes of it. -/
theorem exec_touches {c : Instr} {s t : State} (h : exec c s = .next t) : unchangedBut (touches c) s t := by
  obtain rfl | rfl | ⟨rfl, rfl⟩ := exec_cases h
  · exact unchangedBut.refl _ _
  · exact effect_touches c s
  · exact releaseReset_touches s

/-- Settles O2: no arm of `exec` answers anything but a next state, and each next state lies in its row's frame. -/
theorem commandsCompleteWithinTheirBlocks : Obligations.CommandsCompleteWithinTheirBlocks := by
  intro c s
  have completes : ∃ t, exec c s = .next t := by
    by_cases up : s.resetPin = false
    · exact ⟨_, exec_released c up⟩
    · by_cases on : c = .powerOn
      · exact ⟨powerOn s, by rw [on]; rfl⟩
      · by_cases release : c = .resetRelease
        · exact ⟨_, by rw [release]; rfl⟩
        · exact ⟨_, exec_event on release s⟩
  obtain ⟨t, ht⟩ := completes
  exact ⟨t, ht, exec_touches ht⟩

end Sys2Proof.Proofs
end

section
/-! SUPPORT. How an invariant passes through the taking of a frame, a request or an access, and the statements about
the settings, the state after power-on and the line mode settled from frames alone. -/

namespace Sys2Proof.Proofs

open Sys2Proof Sys2Proof.Machine

/-! ### Through the taking of a frame, a request, an access -/

section
variable {I : State → Prop} {s : State}

theorem takeRequestIf_keeps {test : Frame → Bool} {k : State → Port → Frame → State} (pop : I (popRx s .mgmt))
    (hk : ∀ t p f, mgmtReady t = true → I t → I (k t p f)) (h : I s) : I (takeRequestIf test k s) := by
  unfold takeRequestIf
  split
  · rename_i ready
    split
    · exact h
    · split
      · exact hk _ _ _ ready pop
      · exact h
  · exact h

theorem takeMarkIf_keeps {test : Frame → Bool} {k : State → Port → Frame → State} (pop : I (popRx s .mark))
    (hk : ∀ t p f, I t → I (k t p f)) (h : I s) : I (takeMarkIf test k s) := by
  unfold takeMarkIf
  split
  · exact h
  · split
    · exact hk _ _ _ pop
    · exact h

theorem takeScan_keeps {cls : Nat} {k : State → Frame → State} (pop : I (popRx s .scan))
    (hk : ∀ t f, I t → I (k t f)) (ends : ∀ t, I t → I (endScanTake t)) (h : I s) : I (takeScan cls k s) := by
  unfold takeScan
  split
  · exact h
  · split
    · exact ends _ (hk _ _ pop)
    · exact h

theorem takeNotice_keeps {cls fixed : Nat} {k : State → List Byte → State} (pop : I (popRx s .sorter))
    (hk : ∀ t l, I t → I (k t l)) (counts : ∀ t f, I t → I (t.updStoreCounts f)) (h : I s) :
    I (takeNotice cls fixed k s) := by
  unfold takeNotice
  split
  · exact h
  · split
    · dsimp only
      split
      · exact counts _ _ pop
      · exact hk _ _ pop
    · exact h

theorem mgmtAccess_keeps {k : State → Access → InExec → State}
    (hk : ∀ a e, s.tm.access = .some a → a.who = .management → s.mg.exec = .some e → I (k s a e)) (h : I s) :
    I (mgmtAccess k s) := by
  unfold mgmtAccess
  split
  · rename_i a e ha he
    split
    · exact hk a e ha ‹_› he
    · exact h
  · exact h

end

/-! ### The settings (R19) -/

theorem settingsSound_of_settings {s t : State} (e : t.settings = s.settings) (h : SettingsSound s) :
    SettingsSound t := by
  simpa only [SettingsSound, e] using h

theorem settingsSound_defaults {s : State} (e : s.settings = Settings.defaults) : SettingsSound s := by
  simp [SettingsSound, e, Settings.defaults]

theorem geometryWrite_keeps_settings {s : State} (p : Port) (f : Frame) (h : SettingsSound s) :
    SettingsSound (geometryWrite s p f) := by
  have answered {t : State} (r : Result) (ht : SettingsSound t) : SettingsSound (reply t p f r []) :=
    settingsSound_of_settings (reply_touches t p f r [] .settings (by decide)) ht
  unfold geometryWrite
  dsimp only
  split
  · exact answered _ h
  · split
    · exact answered _ h
    · split
      · rename_i valid
        exact answered _ ((settingsValid_iff _).1 (Bool.and_eq_true _ _ ▸ valid).2)
      · exact answered _ h

/-- Settles O9: only a GEOMETRY-WRITE, whose checks are R19's, and the two resets to the defaults touch the
settings. -/
theorem stepKeepsSettingsSound : Obligations.StepKeepsSettingsSound := by
  intro s t hs
  refine step_keeps (I := SettingsSound) (fun _ _ h => h) (fun c s h => ?_) (fun s _ => settingsSound_defaults rfl) hs
  cases c with
  | geometryWrite =>
    exact takeRequestIf_keeps (I := SettingsSound) h (fun t p f _ => geometryWrite_keeps_settings p f) h
  | powerOn => exact settingsSound_defaults rfl
  | resetRelease => exact h
  | _ => exact settingsSound_of_settings (effect_touches _ s .settings (by simp [touches])) h

/-! ### After power-on -/

theorem reset_slot (k : Fin 64) : State.reset.ring[k] = Slot.empty (resetSeq k) := by
  simp [State.reset, ringAtReset]

/-- Every slot of the ring after a reset is empty. -/
theorem mem_ringAtReset {sl : Slot} (h : sl ∈ ringAtReset.toList) : ∃ seq, sl = Slot.empty seq := by
  simp only [ringAtReset, Vector.toList_mk, List.mem_map] at h
  obtain ⟨k, _, rfl⟩ := h
  exact ⟨_, rfl⟩

theorem reservationsOf_emptied {s : State} (n : Nat) (h : ∀ sl ∈ s.ring.toList, sl.committed = .none) :
    reservationsOf s n = 0 := List.countP_eq_zero.2 fun sl hsl => by simp [h sl hsl]

theorem binAt_atPowerOn (n : Nat) :
    binAt BinStore.atPowerOn n = { capacity := 0, fill := 0, reserved := 0, outOfService := false } := by
  by_cases h : n < 48 <;> simp [binAt, BinStore.atPowerOn, h]

theorem errorBand_atReset : errorBand PortState.atReset := ⟨Nat.zero_le _, (by decide : 0 < 96)⟩

/-- Settles O7: the values of power-on satisfy every invariant, most of them emptily. -/
theorem invariantsHoldAtReset : Obligations.InvariantsHoldAtReset := by
  have emptied {sl : Slot} (h : sl ∈ State.reset.ring.toList) : ∃ seq, sl = Slot.empty seq := mem_ringAtReset h
  have notAccessing : State.reset.tm.access = .none := rfl
  have notWaiting : State.reset.tm.waitMgmt = .none := rfl
  have notExecuting : State.reset.mg.exec = .none := rfl
  refine ⟨⟨rfl, rfl, rfl, by simp [State.reset, Tally.atPowerOn], ?_⟩, settingsSound_defaults rfl,
    ⟨fun q => ?_, ?_, ?_, ?_, fun sl h => ?_, ?_⟩, fun k => ?_, fun n _ => ?_, ⟨by decide +kernel, fun sl h _ => ?_⟩,
    ⟨fun k => ?_, by simp [State.reset, LinkUnit.atReset, PortState.atReset]⟩, ⟨errorBand_atReset, errorBand_atReset⟩,
      ⟨?_, ?_, ?_⟩,
    fun _ => rfl, fun _ => rfl, List.nodup_nil, by simp [State.reset, Optimizer.atReset], fun sl h => ?_⟩
  · simp [State.reset, ScanAssembler.atReset, sparseWf, sparseWfFrom]
  · cases q <;> exact Nat.zero_le _
  · exact Nat.zero_le _
  · exact Nat.zero_le _
  · exact Nat.zero_le _
  · obtain ⟨_, rfl⟩ := emptied h; exact Nat.zero_le _
  · exact Nat.zero_le _
  · revert k; decide +kernel
  · rw [reservationsOf_emptied n fun sl h => by obtain ⟨_, rfl⟩ := emptied h; rfl]
    have bin : binAt State.reset.bos n = _ := binAt_atPowerOn n
    rw [bin]
    exact ⟨Nat.zero_le _, fun _ => ⟨Nat.le_refl 0, Nat.zero_le _⟩⟩
  · obtain ⟨_, rfl⟩ := emptied h; rfl
  · exact ⟨Nat.zero_le _, rfl⟩
  · rintro (run | ⟨sl, h, run⟩ | queued | job)
    · cases run
    · obtain ⟨_, rfl⟩ := emptied h; cases run
    · exact absurd rfl queued
    · exact absurd rfl job
  · simp [MgmtAccessOrdered, notAccessing, notWaiting]
  · simp [WritesOutside, notAccessing, notWaiting, notExecuting]
  · obtain ⟨_, rfl⟩ := emptied h; intro h; cases h

end Sys2Proof.Proofs
end

section
/-! SUPPORT. The line mode: which commands leave it, and what a MODE request makes of it. -/

namespace Sys2Proof.Proofs

open Sys2Proof Sys2Proof.Machine

/-! ### The chain's events leave the mode -/

/-- R5: what the advance leaves of the Chain Tracker. -/
theorem advance_ct (s : State) (synthesized : Bool) :
    (advance s synthesized).ct = { s.ct with c := 0, seq := s.ct.seq + 1, switchHanded := false } := by
  have queued : (advance s synthesized).ct = _ := enqueue_touches _ .U _ .ct (by decide)
  have freed := freeBuffer_touches (s.updCt fun c => { c with c := 0, seq := s.ct.seq + 1, switchHanded := false })
    (s.ct.seq + 1) .ct (by decide)
  exact queued.trans freed

/-- Mode and STARTING stand as they did. -/
def modeKept (s t : State) : Prop := t.ct.mode = s.ct.mode ∧ t.ct.starting = s.ct.starting

theorem modeKept_of_ct {s t : State} (h : t.ct = s.ct) : modeKept s t := ⟨congrArg _ h, congrArg _ h⟩

theorem modeKept.trans {s t u : State} (h₁ : modeKept s t) (h₂ : modeKept t u) : modeKept s u :=
  ⟨h₂.1.trans h₁.1, h₂.2.trans h₁.2⟩

theorem advance_modeKept (s : State) (synthesized : Bool) : modeKept s (advance s synthesized) := by
  rw [modeKept, advance_ct]; exact ⟨rfl, rfl⟩

theorem raiseAlert_ct (s : State) (k : AlertKind) : (raiseAlert s k).ct = s.ct :=
  raiseAlert_touches s k .ct (by decide)

/-- A count of the chain's, its alert and the advance. -/
theorem counted_advance_modeKept {s : State} {f : Chain → Chain} (hf : modeKept s (s.updCt f)) (synthesized : Bool) :
    modeKept s (advance (raiseAlert (s.updCt f) .chain) synthesized) :=
  (hf.trans (modeKept_of_ct (raiseAlert_ct _ _))).trans (advance_modeKept _ _)

theorem handSwitchByCount_modeKept (s : State) : modeKept s (handSwitchByCount s) := by
  unfold handSwitchByCount; split <;> exact ⟨rfl, rfl⟩

theorem countEvent_modeKept (s : State) : modeKept s (countEvent s) := by
  have counted : modeKept s (handSwitchByCount (s.updCt fun c => { c with c := c.c + 1 })) :=
    handSwitchByCount_modeKept _
  unfold countEvent
  dsimp only
  split
  · exact counted.trans (counted_advance_modeKept ⟨rfl, rfl⟩ true)
  · exact counted

theorem indexEvent_modeKept (s : State) : modeKept s (indexEvent s) := by
  unfold indexEvent
  split
  · exact ⟨rfl, rfl⟩
  · unfold acceptIndex
    split
    · exact counted_advance_modeKept ⟨rfl, rfl⟩ false
    · exact advance_modeKept s false

/-- R13, R14: only a MODE request, the end of the sweep and the resets touch mode and STARTING. -/
theorem effect_modeKept {c : Instr} (h : c ∉ [Instr.mode, .softReset, .sweepComplete, .powerOn]) (s : State) :
    modeKept s (effect c s) := by
  cases c with
  | mode | softReset | sweepComplete | powerOn => simp at h
  | encoderCount => exact countEvent_modeKept s
  | missingIndex =>
    have counted : modeKept s (takeMissing s) := by
      unfold takeMissing; split
      · exact countEvent_modeKept s
      · exact ⟨rfl, rfl⟩
    exact counted
  | lugIndex => exact indexEvent_modeKept s
  | resetRelease => exact ⟨rfl, rfl⟩
  | _ => exact modeKept_of_ct (effect_touches _ s .ct (by simp [touches]))

/-! ### The requests that set the mode -/

theorem reply_ct (s : State) (p : Port) (f : Frame) (r : Result) (data : List Byte) :
    (reply s p f r data).ct = s.ct := reply_touches s p f r data .ct (by decide)

theorem reply_tm (s : State) (p : Port) (f : Frame) (r : Result) (data : List Byte) :
    (reply s p f r data).tm = s.tm := reply_touches s p f r data .tm (by decide)

/-- R14: a MODE request that enters RUN finds a set active and leaves it so. -/
theorem changeMode_enters_run {s : State} (m : LineMode) (differs : (changeMode s m).2.ct.mode ≠ s.ct.mode)
    (run : (changeMode s m).2.ct.mode = .run) :
    s.tm.active ≠ .none ∧ (changeMode s m).2.tm.active = s.tm.active := by
  have was : s.ct.mode ≠ .run := fun h => differs (run.trans h.symm)
  cases m with
  | stop =>
    by_cases stopped : s.ct.mode = .stop
    · rw [← stopped, changeMode_same] at run; exact absurd run was
    · rw [changeMode_stop stopped] at run; cases run
  | bypass =>
    by_cases bypassed : s.ct.mode = .bypass
    · rw [← bypassed, changeMode_same] at run; exact absurd run was
    · rw [changeMode_bypass bypassed] at run; cases run
  | run =>
    by_cases set : s.tm.active = .none
    · rw [changeMode_run_noSet was set] at run; exact absurd run was
    · rw [changeMode_run was set]; exact ⟨set, rfl⟩

/-- During STARTING no request is taken from the MGMT queue (R175). -/
theorem takeRequestIf_starting {s : State} (test : Frame → Bool) (k : State → Port → Frame → State)
    (starting : s.ct.starting = true) : takeRequestIf test k s = s :=
  if_neg (by simp [mgmtReady, starting])

/-- A request is not taken, or leaves the queue and is carried out. -/
theorem takeRequestIf_cases (test : Frame → Bool) (k : State → Port → Frame → State) (s : State) :
    takeRequestIf test k s = s ∨ mgmtReady s = true ∧ ∃ p f, takeRequestIf test k s = k (popRx s .mgmt) p f := by
  unfold takeRequestIf
  split
  · rename_i ready
    split
    · exact .inl rfl
    · split
      · exact .inr ⟨ready, _, _, rfl⟩
      · exact .inl rfl
  · exact .inl rfl

/-- What a MODE request taken does to mode and set. -/
theorem modeRequest_enters_run {s : State} (p : Port) (f : Frame)
    (differs : (modeRequest s p f).ct.mode ≠ s.ct.mode) (run : (modeRequest s p f).ct.mode = .run) :
    s.tm.active ≠ .none ∧ (modeRequest s p f).tm.active = s.tm.active := by
  cases named : modeOf (num8 (requestArgs f) 0) with
  | none => simp only [modeRequest, named, reply_ct] at differs; exact absurd rfl differs
  | some m =>
    simp only [modeRequest, named, reply_ct, reply_tm] at differs run ⊢
    exact changeMode_enters_run m differs run

/-- Settles O4: every other command leaves the Chain Tracker's mode, a MODE request acts by Table 1-5, and the
resets name STOP. -/
theorem modeChangesOnlyByRequestOrReset : Obligations.ModeChangesOnlyByRequestOrReset := by
  refine ⟨fun c s t starting stop notSweep h => ?_, fun c s t h differs => ?_⟩
  · obtain rfl | rfl | ⟨_, rfl⟩ := exec_cases h
    · exact ⟨starting, stop⟩
    · by_cases sets : c ∈ [Instr.mode, .softReset, .sweepComplete, .powerOn]
      · simp only [List.mem_cons, List.not_mem_nil, or_false] at sets
        obtain rfl | rfl | rfl | rfl := sets
        · rw [show effect .mode s = s from takeRequestIf_starting _ _ starting]; exact ⟨starting, stop⟩
        · rw [show effect .softReset s = s from takeRequestIf_starting _ _ starting]; exact ⟨starting, stop⟩
        · exact absurd rfl notSweep
        · exact ⟨rfl, rfl⟩
      · obtain ⟨mode, started⟩ := effect_modeKept sets s
        exact ⟨started.trans starting, mode.trans stop⟩
    · exact ⟨starting, rfl⟩
  · obtain rfl | rfl | ⟨rfl, rfl⟩ := exec_cases h
    · exact absurd rfl differs
    · by_cases sets : c ∈ [Instr.mode, .softReset, .sweepComplete, .powerOn]
      · simp only [List.mem_cons, List.not_mem_nil, or_false] at sets
        obtain rfl | rfl | rfl | rfl := sets
        · refine ⟨.inl rfl, fun run => ?_⟩
          obtain same | ⟨_, p, f, taken⟩ := takeRequestIf_cases (soundCode 6) modeRequest s
          · exact absurd (congrArg (·.ct.mode) same) differs
          · rw [show effect .mode s = _ from taken] at differs run ⊢
            exact modeRequest_enters_run p f differs run
        · obtain same | ⟨_, p, f, taken⟩ := takeRequestIf_cases (soundCode 17) softResetRequest s
          · exact absurd (congrArg (·.ct.mode) same) differs
          · rw [show effect .softReset s = _ from taken]
            have stops : (softResetRequest (popRx s .mgmt) p f).ct = Chain.atReset false := reply_ct _ _ _ _ _
            rw [stops]
            exact ⟨.inr ⟨rfl, by simp⟩, fun run => by cases run⟩
        · change (endSweep s).ct.mode ≠ _ at differs
          change (_ ∨ (endSweep s).ct.mode = _ ∧ _) ∧ ((endSweep s).ct.mode = _ → _ ∧ (endSweep s).tm.active = _)
          unfold endSweep at *
          split
          · exact ⟨.inr ⟨rfl, by simp⟩, fun run => by cases run⟩
          · rename_i swept
            rw [if_neg swept] at differs; exact absurd rfl differs
        · exact ⟨.inr ⟨rfl, by simp⟩, fun run => by cases run⟩
      · exact absurd (effect_modeKept sets s).1 differs
    · exact ⟨.inr ⟨rfl, by simp⟩, fun run => by cases run⟩

end Sys2Proof.Proofs
end

section
/-! SUPPORT. What every command leaves of the Link Unit: one walk over the operations that touch it, for any property
that its few elementary changes keep. -/

namespace Sys2Proof.Proofs

open Sys2Proof Sys2Proof.Machine

/-- A property of the Link Unit that each elementary change of it keeps: counters and filters, what a port holds but
its transmit queue and error count, an error count judged anew, a receive queue within its bounds, a frame or a new
ALERT that joins a transmit queue, an ALERT merged, a transmission begun, and the resets. -/
structure LinkClosed (J : LinkUnit → Prop) : Prop where
  counts : ∀ {l m : LinkUnit}, m.u = l.u → m.d = l.d → (∀ q, rxQueue m q = rxQueue l q) → J l → J m
  port : ∀ {s : State} {f : PortState → PortState} (p : Port),
    (∀ q, (f q).tx = q.tx ∧ (f q).errCount = q.errCount ∧ (f q).errState = q.errState) → J s.lu → J (updPort s p f).lu
  judged : ∀ {s : State} {n : Nat} (p : Port), n ≤ max 255 (portOf s.lu p).errCount → J s.lu →
    J (updPort s p fun q => { q with errCount := n, errState := judgeError q.errState n }).lu
  received : ∀ {l : LinkUnit} {q : QueueId} {fs : List (Port × Frame)},
    fs.length ≤ rxCapacity q ∨ fs.length ≤ (rxQueue l q).length → J l → J (setRxQueue l q fs)
  joined : ∀ {s : State} (p : Port) (n : Fin 4) (f : Frame), J s.lu →
    J (updPort s p fun q => joinTx q (.frame n f)).lu
  raised : ∀ {s : State} {k : AlertKind}, alertPending s k = false → J s.lu →
    J (updPort s .D fun q => joinTx q (.alert k 1)).lu
  merged : ∀ {s : State} (k : AlertKind), J s.lu →
    J { s.lu with d := { s.lu.d with tx := s.lu.d.tx.map (bumpAlert k) }, merged := s.lu.merged.inc k }
  started : ∀ {s : State} (p : Port), J s.lu → J (startTx s p).lu
  fresh : J LinkUnit.atReset
  emptied : ∀ {l : LinkUnit}, J l → J (emptyQueues l)

namespace LinkClosed

variable {J : LinkUnit → Prop} (hJ : LinkClosed J) {s : State}

/-- An operation that does not touch the Link Unit keeps its properties. -/
theorem frame {N : List Block} {t : State} (h : unchangedBut N s t) (hb : Block.lu ∉ N) (hs : J s.lu) : J t.lu := by
  have e := h .lu hb
  rw [Block.same] at e
  rwa [e]

include hJ

/-! ### Transmission -/

theorem enqueue (p : Port) (n : Fin 4) (f : Frame) (hs : J s.lu) : J (enqueue s p (.frame n f)).lu :=
  hJ.started p (hJ.joined p n f hs)

theorem raiseAlert (k : AlertKind) (hs : J s.lu) : J (raiseAlert s k).lu := by
  unfold Machine.raiseAlert
  split
  · exact hJ.merged k hs
  · exact hJ.started .D (hJ.raised (Bool.eq_false_iff.2 ‹_›) hs)

theorem storeEvent (f : BinStore → BinStore) (hs : J s.lu) : J (storeEvent s f).lu := by
  unfold Machine.storeEvent
  dsimp only
  split
  · exact hs
  · exact hJ.raiseAlert .bin (s := s.updBos f) hs

theorem reply (p : Port) (f : Frame) (r : Result) (data : List Byte) (hs : J s.lu) : J (reply s p f r data).lu :=
  hJ.enqueue p 1 _ hs

theorem popRx (q : QueueId) (hs : J s.lu) : J (popRx s q).lu :=
  hJ.received (.inr (by simp)) hs

/-! ### Reception -/

theorem setErrCount (p : Port) {n : Nat} (hn : n ≤ max 255 (portOf s.lu p).errCount) (hs : J s.lu) :
    J (setErrCount s p n).lu := by
  have judged := hJ.judged p hn hs
  have same : (updPort s p fun q => { q with errCount := n, errState := judgeError q.errState n })
      = updPort s p fun q => { q with errCount := n, errState := judgeError (portOf s.lu p).errState n } := by
    cases p <;> rfl
  rw [same] at judged
  unfold Machine.setErrCount
  dsimp only
  split
  · exact judged
  · exact hJ.raiseAlert .port judged

/-- A frame that arrives is counted, and the error count judged by its check. -/
theorem errUp_arrival (p : Port) {f : PortState → PortState}
    (hf : ∀ q, (f q).tx = q.tx ∧ (f q).errCount = q.errCount ∧ (f q).errState = q.errState) (hs : J s.lu) :
    J (Machine.setErrCount (updPort s p f) p (errUp (portOf s.lu p).errCount)).lu :=
  hJ.setErrCount p (le_max_of_le_left (Nat.min_le_left _ _)) (hJ.port p hf hs)

theorem malformedArrival (p : Port) (hs : J s.lu) : J (malformedArrival s p).lu :=
  hJ.errUp_arrival p (fun _ => ⟨rfl, rfl, rfl⟩) hs

theorem setRx (p : Port) (rx : Option (List Byte)) (hs : J s.lu) : J (setRx s p rx).lu :=
  hJ.port p (fun _ => ⟨rfl, rfl, rfl⟩) hs

theorem consume (q : QueueId) (p : Port) (f : Frame) (hs : J s.lu) : J (consume s q p f).lu := by
  have counted (m : PerQueue) : J { s.lu with overflow := m } :=
    hJ.counts (l := s.lu) rfl rfl (fun q => by cases q <;> rfl) hs
  unfold Machine.consume
  split
  · rename_i room
    exact hJ.received (.inl (by rw [List.length_append]; exact room)) hs
  · cases q with
    | scan | mark | mgmt => exact counted _
    | sorter =>
      exact hJ.raiseAlert .port (s := State.updLu _ _)
        (hJ.counts (l := s.lu) rfl rfl (fun q => by cases q <;> rfl) hs)

theorem filterFrame (p : Port) (f : Frame) (hs : J s.lu) : J (filterFrame s p f).lu := by
  unfold Machine.filterFrame
  split
  · exact hJ.enqueue _ _ _ hs
  · rename_i n _
    have hit (e : Filter) : J (s.updLu fun l => { l with filters := l.filters.setIfInBounds n e }).lu :=
      hJ.counts (l := s.lu) rfl rfl (fun q => by cases q <;> rfl) hs
    dsimp only
    split
    · exact hJ.consume _ _ _ (hit _)
    · exact hJ.enqueue _ _ _ (hJ.consume _ _ _ (hit _))
    · exact hJ.enqueue _ _ _ (hit _)
    · exact hit _

theorem frameArrives (p : Port) (f : Frame) (hs : J s.lu) : J (frameArrives s p f).lu := by
  have good : J (Machine.setErrCount (updPort s p fun ps => { ps with good := satInc ps.good }) p
      (errDown (portOf s.lu p).errCount)).lu := by
    refine hJ.setErrCount p ?_ (hJ.port p (fun _ => ⟨rfl, rfl, rfl⟩) hs)
    rw [portOf_updPort]
    exact le_max_of_le_right (Nat.sub_le _ _)
  unfold Machine.frameArrives
  split
  · exact hJ.malformedArrival p hs
  · split
    · dsimp only
      split
      · exact hJ.port p (fun _ => ⟨rfl, rfl, rfl⟩) good
      · exact hJ.filterFrame p f good
    · exact hJ.errUp_arrival p (fun _ => ⟨rfl, rfl, rfl⟩) hs

theorem receive (p : Port) (sym : Symbol) (hs : J s.lu) : J (receive s p sym).lu := by
  unfold Machine.receive
  split
  · exact hs
  · exact hJ.setRx p _ hs
  · exact hJ.malformedArrival p (hJ.setRx p _ hs)
  · exact hs
  · exact hJ.malformedArrival p (hJ.setRx p _ hs)
  · exact hs
  · unfold frameByte
    split
    · exact hJ.malformedArrival p (hJ.setRx p _ hs)
    · split
      · exact hJ.frameArrives p _ (hJ.setRx p _ hs)
      · exact hJ.setRx p _ hs

theorem comeUp (p : Port) (sym : Symbol) (hs : J s.lu) : J (comeUp s p sym).lu :=
  hJ.receive p sym (hJ.started p (hJ.raiseAlert .port (hJ.port p (fun _ => ⟨rfl, rfl, rfl⟩) hs)))

theorem symbolOn (p : Port) (sym : Symbol) (hs : J s.lu) : J (symbolOn s p sym).lu := by
  unfold Machine.symbolOn
  split
  · exact hJ.receive p sym (hJ.port p (fun _ => ⟨rfl, rfl, rfl⟩) hs)
  · exact hJ.comeUp p sym hs

theorem linkExpires (p : Port) (hs : J s.lu) : J (linkExpires s p).lu := by
  have down : J (Machine.raiseAlert (updPort s p fun ps =>
      { ps with link := .down, timer := false, rx := .none }) .port).lu :=
    hJ.raiseAlert .port (hJ.port p (fun _ => ⟨rfl, rfl, rfl⟩) hs)
  unfold Machine.linkExpires
  split
  · dsimp only
    split
    · exact down
    · exact hJ.malformedArrival p down
  · exact hs

theorem misrouted (q : QueueId) (hs : J s.lu) : J (misrouted s q).lu := by
  have counted : J ((Machine.popRx s q).updLu fun l => { l with misrouted := l.misrouted.inc q }).lu :=
    hJ.counts (l := (Machine.popRx s q).lu) rfl rfl (fun q => by cases q <;> rfl) (hJ.popRx q hs)
  unfold Machine.misrouted
  split
  · exact hs
  · split
    · exact hs
    · dsimp only
      split <;> exact counted

/-! ### The chain and the scan -/

theorem advance (synthesized : Bool) (hs : J s.lu) : J (advance s synthesized).lu :=
  hJ.enqueue .U _ _ (frame (s := s.updCt _) (N := [.ring, .sa])
    ((freeBuffer_touches _ _).next (setSlot_touches _ _ _) (by decide)) (by decide) hs)

theorem countEvent (hs : J s.lu) : J (countEvent s).lu := by
  have counted : J (handSwitchByCount (s.updCt fun c => { c with c := c.c + 1 })).lu := by
    unfold handSwitchByCount; split <;> exact hs
  unfold Machine.countEvent
  dsimp only
  split
  · exact hJ.advance _ (hJ.raiseAlert .chain counted)
  · exact counted

theorem indexEvent (hs : J s.lu) : J (indexEvent s).lu := by
  unfold Machine.indexEvent
  split
  · exact hs
  · unfold acceptIndex
    split
    · exact hJ.advance _ (hJ.raiseAlert .chain (s := State.updCt _ _) hs)
    · exact hJ.advance _ hs

theorem takeScan {cls : Nat} {k : State → Frame → State} {N : List Block}
    (hk : ∀ t f, unchangedBut N t (k t f)) (hb : Block.lu ∉ N) (hs : J s.lu) : J (takeScan cls k s).lu :=
  takeScan_keeps (I := fun t => J t.lu) (hJ.popRx .scan hs) (fun t f ht => frame (hk t f) hb ht) (fun _ ht => ht) hs

theorem takeScanOverflow (hs : J s.lu) : J (takeScanOverflow s).lu := by
  unfold Proofs.takeScanOverflow
  split
  · exact hs
  · exact hJ.raiseAlert .scanLoss (s := State.updRing _ _) hs

/-! ### Table memory -/

theorem noteRead (who : Requester) (i : Nat) (hs : J s.lu) : J (noteRead s who i).lu := by
  unfold Machine.noteRead
  split
  · exact hs
  · exact hs
  · exact hJ.raiseAlert .ecc (s := State.updTm _ _) hs

theorem endRead (who : Requester) (i : Nat) (hs : J s.lu) : J (endAccess (Machine.noteRead s who i)).lu :=
  frame (endAccess_touches _) (by decide) (hJ.noteRead who i hs)

theorem endOptRead (hs : J s.lu) : J (endOptRead s).lu := by
  unfold Proofs.endOptRead
  split
  · split
    · split
      · exact frame (((giveJobWord_touches _ _).mono (N := [.opt, .tm]) (by decide)).trans (askJobWord_touches _))
          (by decide) (hJ.endRead _ _ hs)
      · exact hJ.endRead _ _ hs
    · exact hs
  · exact hs

theorem endVisit (hs : J s.lu) : J (endVisit s).lu := by
  unfold Proofs.endVisit
  split
  · split
    · refine frame (endAccess_touches _) (by decide) ?_
      have noted := hJ.noteRead .scrubber ‹Access›.index hs
      unfold visitWord
      dsimp only
      split <;> exact noted
    · exact hs
  · exact hs

theorem endWork (e : InExec) (r : Result) (data : List Byte) (hs : J s.lu) : J (endWork s e r data).lu :=
  hJ.reply _ _ _ _ (s := State.updMg _ _) hs

omit hJ in
theorem continueWork (e : InExec) (w : Work) (i : Nat) (k : AccessKind) (hs : J s.lu) :
    J (continueWork s e w i k).lu :=
  frame (requestMgmt_touches _ _ _) (by decide) (s := s.updMg _) hs

theorem readAccess (a : Access) (e : InExec) (hs : J s.lu) : J (readAccess s a e).lu := by
  have read := hJ.endRead .management a.index hs
  unfold Machine.readAccess
  split
  · dsimp only
    split
    · exact hJ.endWork _ _ _ read
    all_goals
      split
      · exact hJ.endWork _ _ _ read
      · exact continueWork _ _ _ _ read
  all_goals exact hs

theorem writeAccess (a : Access) (e : InExec) (hs : J s.lu) : J (writeAccess s a e).lu := by
  have stored (f : TableMemory → TableMemory) : J (endAccess (s.updTm f)).lu :=
    frame (endAccess_touches _) (by decide) (s := s.updTm f) hs
  unfold Machine.writeAccess
  split
  · dsimp only
    split
    · exact hJ.endWork _ _ _ (stored _)
    · exact continueWork _ _ _ _ (stored _)
  all_goals exact hs

theorem byteAccess (a : Access) (e : InExec) (hs : J s.lu) : J (byteAccess s a e).lu := by
  have noted := hJ.noteRead .management a.index hs
  have stored (f : TableMemory → TableMemory) : J (endAccess ((Machine.noteRead s .management a.index).updTm f)).lu :=
    frame (endAccess_touches _) (by decide) (s := State.updTm _ f) noted
  unfold Machine.byteAccess
  split
  · dsimp only
    split
    · exact hJ.endWork _ _ _ (hJ.endRead .management a.index hs)
    all_goals
      split
      · exact hJ.endWork _ _ _ (stored _)
      · exact continueWork _ _ _ _ (stored _)
  all_goals exact hs

theorem copyAccess (a : Access) (e : InExec) (hs : J s.lu) : J (copyAccess s a e).lu := by
  have read := hJ.endRead .management a.index hs
  unfold Machine.copyAccess
  split
  · dsimp only
    split
    · exact hJ.endWork _ _ _ read
    all_goals
      split
      · exact hJ.endWork _ _ _ (s := State.updSa _ _) read
      · exact continueWork _ _ _ _ read
  all_goals exact hs

omit hJ in
theorem mgmtAccess {k : State → Access → InExec → State} (hk : ∀ a e, J s.lu → J (k s a e).lu) (hs : J s.lu) :
    J (mgmtAccess k s).lu :=
  mgmtAccess_keeps (I := fun t => J t.lu) (fun a e _ _ _ => hk a e hs) hs

/-! ### Requests -/

theorem takeRequestIf {test : Frame → Bool} {k : State → Port → Frame → State}
    (hk : ∀ {t p f}, J t.lu → J (k t p f).lu) (hs : J s.lu) : J (takeRequestIf test k s).lu :=
  takeRequestIf_keeps (I := fun t => J t.lu) (hJ.popRx .mgmt hs) (fun _ _ _ _ ht => hk ht) hs

omit hJ in
theorem beginWork (p : Port) (f : Frame) (w : Work) (i : Nat) (k : AccessKind) (hs : J s.lu) :
    J (beginWork s p f w i k).lu :=
  frame (requestMgmt_touches _ _ _) (by decide) (s := s.updMg _) hs

theorem tableRead {p : Port} {f : Frame} (hs : J s.lu) : J (tableRead s p f).lu := by
  unfold Machine.tableRead
  split
  · exact hJ.reply _ _ _ _ hs
  · split
    · exact hJ.reply _ _ _ _ hs
    · exact beginWork _ _ _ _ _ hs

theorem tableWrite {p : Port} {f : Frame} (hs : J s.lu) : J (tableWrite s p f).lu := by
  unfold Machine.tableWrite
  split
  · exact hJ.reply _ _ _ _ hs
  · split
    · exact hJ.reply _ _ _ _ hs
    · exact beginWork _ _ _ _ _ hs

theorem tableWriteByte {p : Port} {f : Frame} (hs : J s.lu) : J (tableWriteByte s p f).lu := by
  unfold Machine.tableWriteByte
  split
  · split
    · exact hJ.reply _ _ _ _ hs
    · exact beginWork _ _ _ _ _ hs
  · exact hJ.reply _ _ _ _ hs

theorem setSelect {p : Port} {f : Frame} (hs : J s.lu) : J (setSelect s p f).lu := by
  unfold Machine.setSelect
  split
  · exact hJ.reply _ _ _ _ hs
  · split
    · exact beginWork _ _ _ _ _ hs
    · exact hJ.reply _ _ _ _ hs

theorem mapWrite {p : Port} {f : Frame} (hs : J s.lu) : J (mapWrite s p f).lu := by
  unfold Machine.mapWrite
  dsimp only
  split
  · exact hJ.reply _ _ _ _ hs
  · split
    · exact hJ.reply _ _ _ _ hs
    · split
      · exact hJ.reply _ _ _ _ hs
      · exact hJ.reply _ _ _ _ (s := State.updTm _ _) hs

theorem clearRing (hs : J s.lu) : J (clearRing s).lu := by
  rw [clearRing_eq]
  exact hJ.storeEvent _ hs

theorem modeRequest {p : Port} {f : Frame} (hs : J s.lu) : J (modeRequest s p f).lu := by
  have changed (m : LineMode) : J (changeMode s m).2.lu := by
    unfold changeMode
    split
    · exact hs
    · exact hs
    · exact hs
    · exact hJ.clearRing hs
    · exact hJ.clearRing hs
    · exact hs
    · exact hs
    · split <;> exact hs
    · split <;> exact hs
  unfold Machine.modeRequest
  split
  · exact hJ.reply _ _ _ _ hs
  · exact hJ.reply _ _ _ _ (changed _)

theorem geometryWrite {p : Port} {f : Frame} (hs : J s.lu) : J (geometryWrite s p f).lu := by
  unfold Machine.geometryWrite
  dsimp only
  split
  · exact hJ.reply _ _ _ _ hs
  · split
    · exact hJ.reply _ _ _ _ hs
    · split
      · exact hJ.reply _ _ _ _ (s := State.updSettings _ _) hs
      · exact hJ.reply _ _ _ _ hs

theorem filterWrite {p : Port} {f : Frame} (hs : J s.lu) : J (filterWrite s p f).lu := by
  unfold Machine.filterWrite
  dsimp only
  split
  · exact hJ.reply _ _ _ _ hs
  · split
    · exact hJ.reply _ _ _ _ hs
    · exact hJ.reply _ _ _ _ (s := State.updLu _ _) (hJ.counts (l := s.lu) rfl rfl (fun q => by cases q <;> rfl) hs)

theorem binWrite {p : Port} {f : Frame} (hs : J s.lu) : J (binWrite s p f).lu := by
  unfold Machine.binWrite
  dsimp only
  split
  · exact hJ.reply _ _ _ _ hs
  · split
    · exact hJ.reply _ _ _ _ (s := State.updStoreCounts _ _) (hJ.storeEvent _ hs)
    · exact hJ.reply _ _ _ _ (hJ.storeEvent _ hs)

theorem binRead {p : Port} {f : Frame} (hs : J s.lu) : J (binRead s p f).lu := by
  unfold Machine.binRead; dsimp only; split <;> exact hJ.reply _ _ _ _ hs

theorem quotaSet {p : Port} {f : Frame} (hs : J s.lu) : J (quotaSet s p f).lu := by
  unfold Machine.quotaSet
  dsimp only
  split
  · exact hJ.reply _ _ _ _ hs
  · exact hJ.reply _ _ _ _ (s := State.updBos _ _) hs

theorem quotaRead {p : Port} {f : Frame} (hs : J s.lu) : J (quotaRead s p f).lu := by
  unfold Machine.quotaRead; dsimp only; split <;> exact hJ.reply _ _ _ _ hs

theorem tallyRead {p : Port} {f : Frame} (hs : J s.lu) : J (tallyRead s p f).lu := by
  unfold Machine.tallyRead
  dsimp only
  split
  · exact hJ.reply _ _ _ _ hs
  · split
    · exact hJ.reply _ _ _ _ hs
    · split
      · exact hJ.reply _ _ _ _ hs
      · split <;> exact hJ.reply _ _ _ _ hs

theorem tallyClose {p : Port} {f : Frame} (hs : J s.lu) : J (tallyClose s p f).lu := by
  unfold Machine.tallyClose
  dsimp only
  split
  · exact hJ.reply _ _ _ _ hs
  · exact hJ.reply _ _ _ _ (s := closePeriod s) hs

theorem statusRead {p : Port} {f : Frame} (hs : J s.lu) : J (statusRead s p f).lu := by
  unfold Machine.statusRead
  split
  · exact hJ.reply _ _ _ _ hs
  · exact hJ.reply _ _ _ _ (s := State.updTm _ _) hs

theorem lugRead {p : Port} {f : Frame} (hs : J s.lu) : J (lugRead s p f).lu := by
  unfold Machine.lugRead; dsimp only; split <;> exact hJ.reply _ _ _ _ hs

theorem softResetRequest {p : Port} {f : Frame} (hs : J s.lu) : J (softResetRequest s p f).lu :=
  hJ.reply _ _ _ _ (s := softReset s) (hJ.emptied hs)

theorem refuseBody {p : Port} {f : Frame} (hs : J s.lu) : J (refuseBody s p f).lu :=
  hJ.reply _ _ _ _ (s := State.updMg _ _) hs

theorem takeMgmtOverflow (hs : J s.lu) : J (takeMgmtOverflow s).lu := by
  unfold Proofs.takeMgmtOverflow
  split
  · exact hs
  · exact hJ.reply _ _ _ _ (s := State.updHanded _ _) hs

/-! ### Marks, notices and commitments -/

theorem takeMark {test : Frame → Bool} {effect : State → Frame → State} {N : List Block}
    (he : ∀ t f, unchangedBut N t (effect t f)) (hb : Block.lu ∉ N) (hs : J s.lu) :
    J (takeMarkIf test (fun s p f => takeMark s p f fun s => effect s f) s).lu := by
  refine takeMarkIf_keeps (I := fun t => J t.lu) (hJ.popRx .mark hs) (fun t p f ht => ?_) hs
  refine hJ.enqueue p 1 _ ?_
  split
  · exact frame (he t f) hb ht
  · exact ht

theorem takeMarkOverflow (hs : J s.lu) : J (takeMarkOverflow s).lu := by
  unfold Proofs.takeMarkOverflow
  split
  · exact hs
  · exact hJ.enqueue _ 1 _ (s := State.updHanded _ _) hs

theorem takeNotice {cls fixed : Nat} {k : State → List Byte → State} (hk : ∀ t l, J t.lu → J (k t l).lu)
    (hs : J s.lu) : J (takeNotice cls fixed k s).lu :=
  takeNotice_keeps (I := fun t => J t.lu) (hJ.popRx .sorter hs) hk (fun _ _ ht => ht) hs

theorem binEmptied (body : List Byte) (hs : J s.lu) : J (binEmptied s body).lu := by
  unfold Machine.binEmptied
  dsimp only
  split
  · exact hs
  · exact hJ.storeEvent _ hs

theorem binService (body : List Byte) (hs : J s.lu) : J (binService s body).lu := by
  unfold Machine.binService
  dsimp only
  split
  · exact hs
  · split
    · exact hs
    · split
      · exact hJ.storeEvent _ hs
      · split
        · exact hJ.storeEvent _ hs
        · exact hs

theorem writeCommit (lug : LugSeq) (c : Committed) (d : Option Decision) (fl : CommitFlags) (hs : J s.lu) :
    J (writeCommit s lug c d fl).lu := hJ.enqueue .D 0 _ (s := updSlot s lug _) hs

theorem commitDecision (lug : LugSeq) (d : Decision) (stale : Bool) (hs : J s.lu) :
    J (commitDecision s lug d stale).lu := by
  unfold Machine.commitDecision
  split
  · refine hJ.writeCommit _ _ _ _ (s := State.updBos _ _) ?_
    rw [askBins_eq]
    cases List.find? _ _ with
    | none => exact hJ.storeEvent _ hs
    | some n => exact hJ.storeEvent _ hs
  · exact hJ.writeCommit _ _ _ _ (hJ.storeEvent _ hs)
  · exact hJ.writeCommit _ _ _ _ (hJ.storeEvent _ hs)

theorem judgeLock (lug : LugSeq) (hs : J s.lu) : J (judgeLock s lug).lu := by
  have freed : J (freeBuffer s lug).lu := frame (freeBuffer_touches s lug) (by decide) hs
  unfold Machine.judgeLock
  dsimp only
  split
  · exact freed
  · exact hJ.writeCommit _ _ _ _ (hJ.storeEvent _ freed)
  · exact hJ.writeCommit _ _ _ _ (s := updSlot _ _ _) freed
  · exact hJ.writeCommit _ _ _ _ (hJ.storeEvent _ freed)
  · exact hJ.commitDecision _ _ _ freed
  · unfold beginRegrade
    split
    · exact frame (requestCommit_touches _ _) (by decide) (s := State.updCu _ _) freed
    · exact hJ.commitDecision _ _ _ (s := updSlot _ _ _) freed

theorem takeHeldLocks : ∀ (held : List LugSeq) {s : State}, J s.lu → J (takeHeldLocks held s).lu
  | [], _, hs => hs
  | lug :: rest, s, hs => by
    unfold Machine.takeHeldLocks
    split
    · exact hs
    · exact takeHeldLocks rest (hJ.judgeLock lug hs)

theorem takeLock (hs : J s.lu) : J (takeLock s).lu := by
  unfold Proofs.takeLock
  split
  · exact hs
  · unfold lockArrives
    split
    · exact hs
    · exact hJ.judgeLock _ (s := State.updHanded _ _) hs

theorem endCommitRead (hs : J s.lu) : J (endCommitRead s).lu := by
  unfold Proofs.endCommitRead
  split
  · have read := hJ.endRead .commit ‹Access›.index hs
    split
    · split
      · split
        · exact frame (takeHeldSwitch_touches _) (by decide)
            (hJ.takeHeldLocks _ (hJ.commitDecision _ _ _ (s := updSlot _ _ _) read))
        · exact read
      · exact read
    · exact hs
  · exact hs

theorem takeSort (hs : J s.lu) : J (takeSort s).lu := by
  unfold Proofs.takeSort
  split
  · exact hs
  · unfold sortArrives
    split
    · exact frame (retire_touches _ _) (by decide) (s := State.updHanded _ _) hs
    · refine frame (retire_touches _ _) (by decide) (s := State.report _ _) (hJ.enqueue .D 0 _ ?_)
      split
      · exact hs
      · exact hJ.storeEvent _ (s := State.updHanded _ _) hs

theorem assertReset (hs : J s.lu) : J (assertReset s).lu := by
  have cut : J (cutPort (cutPort s .U) .D).lu :=
    hJ.port .D (fun _ => ⟨rfl, rfl, rfl⟩) (hJ.port .U (fun _ => ⟨rfl, rfl, rfl⟩) hs)
  have ended : J (endCutAccess (cutPort (cutPort s .U) .D)).lu := frame (endCutAccess_touches _) (by decide) cut
  exact ended

theorem endTransmission (p : Port) (hs : J s.lu) : J (endTransmission s p).lu := by
  unfold Proofs.endTransmission
  split
  · exact hs
  · exact hJ.started p (hJ.port p (fun _ => ⟨rfl, rfl, rfl⟩) hs)

/-! ### Every command -/

/-- Every command's effect keeps a property that the elementary changes of the Link Unit keep. -/
theorem effect (c : Instr) (hs : J s.lu) : J (effect c s).lu := by
  cases c with
  | encoderCount => exact hJ.countEvent hs
  | missingIndex =>
    have counted : J (takeMissing s).lu := by
      unfold takeMissing; split
      · exact hJ.countEvent hs
      · exact hs
    exact counted
  | lugIndex => exact hJ.indexEvent hs
  | boardOpen => exact hJ.takeScan openBoard_touches (by decide) hs
  | profile => exact hJ.takeScan takeProfile_touches (by decide) hs
  | profileCont => exact hJ.takeScan takeProfileCont_touches (by decide) hs
  | boardClose => exact hJ.takeScan takeClose_touches (by decide) hs
  | scanQueueOverflow => exact hJ.takeScanOverflow hs
  | optimizerRead => exact hJ.endOptRead hs
  | gradeMark => exact hJ.takeMark (fun t f => applyGrade_touches t f.tag (markArg f)) (by decide) hs
  | cutMark => exact hJ.takeMark (fun t f => applyCut_touches t f.tag (markArg f)) (by decide) hs
  | rejectMark => exact hJ.takeMark (fun t f => applyReject_touches t f.tag) (by decide) hs
  | clearMark => exact hJ.takeMark (fun t f => applyClear_touches t f.tag) (by decide) hs
  | badMarkKind => exact hJ.takeMark (effect := fun t _ => t) (fun t _ => unchangedBut.refl [] t) (by decide) hs
  | markQueueOverflow => exact hJ.takeMarkOverflow hs
  | lockArrival => exact hJ.takeLock hs
  | commitCompletion => exact hJ.endCommitRead hs
  | sortArrival => exact hJ.takeSort hs
  | binEmptied => exact hJ.takeNotice (fun _ l ht => hJ.binEmptied l ht) hs
  | binService => exact hJ.takeNotice (fun _ l ht => hJ.binService l ht) hs
  | frameArrival p f => exact hJ.frameArrives p f (hJ.setRx p _ hs)
  | malformedFrame p how => exact hJ.malformedArrival p (hJ.setRx p _ hs)
  | misroutedFrame q => exact hJ.misrouted q hs
  | linkAliveExpiry p => exact hJ.linkExpires p hs
  | linkUp p sym =>
    have up : J (takeLinkUp s p sym).lu := by
      unfold takeLinkUp; split
      · exact hJ.comeUp p sym hs
      · exact hs
    exact up
  | transmissionComplete p => exact hJ.endTransmission p hs
  | tableRead => exact hJ.takeRequestIf hJ.tableRead hs
  | tableWrite => exact hJ.takeRequestIf hJ.tableWrite hs
  | tableWriteByte => exact hJ.takeRequestIf hJ.tableWriteByte hs
  | tableReadAccess => exact mgmtAccess hJ.readAccess hs
  | tableWriteAccess => exact mgmtAccess hJ.writeAccess hs
  | byteWriteAccess => exact mgmtAccess hJ.byteAccess hs
  | mapWrite => exact hJ.takeRequestIf hJ.mapWrite hs
  | setSelect => exact hJ.takeRequestIf hJ.setSelect hs
  | copyAccess => exact mgmtAccess hJ.copyAccess hs
  | scrubVisit => exact hJ.endVisit hs
  | mode => exact hJ.takeRequestIf hJ.modeRequest hs
  | geometryWrite => exact hJ.takeRequestIf hJ.geometryWrite hs
  | filterWrite => exact hJ.takeRequestIf hJ.filterWrite hs
  | binWrite => exact hJ.takeRequestIf hJ.binWrite hs
  | binRead => exact hJ.takeRequestIf hJ.binRead hs
  | quotaSet => exact hJ.takeRequestIf hJ.quotaSet hs
  | quotaRead => exact hJ.takeRequestIf hJ.quotaRead hs
  | tallyRead => exact hJ.takeRequestIf hJ.tallyRead hs
  | tallyClose => exact hJ.takeRequestIf hJ.tallyClose hs
  | statusRead => exact hJ.takeRequestIf hJ.statusRead hs
  | lugRead => exact hJ.takeRequestIf hJ.lugRead hs
  | softReset => exact hJ.takeRequestIf hJ.softResetRequest hs
  | badRequest => exact hJ.takeRequestIf hJ.refuseBody hs
  | mgmtQueueOverflow => exact hJ.takeMgmtOverflow hs
  | powerOn => exact hJ.fresh
  | resetAssert => exact hJ.assertReset hs
  | resetRelease => exact hs
  | symbolReceived p sym => exact hJ.symbolOn p sym hs
  | markShortBody =>
    exact takeMarkIf_keeps (I := fun t => J t.lu) (hJ.popRx .mark hs) (fun _ _ _ ht => ht) hs
  | _ => exact frame (effect_touches _ s) (by simp [touches]) hs

end LinkClosed

end Sys2Proof.Proofs
end

section
/-! SUPPORT. Transmit queues: which entry a priority names, what joining and sending leave, and the statements about
transmissions and ALERT merging settled from them. -/

namespace Sys2Proof.Proofs

open Sys2Proof Sys2Proof.Machine

theorem exec_transmissionComplete (s : State) (p : Port) :
    exec (.transmissionComplete p) s = taken s fun s => endTransmission s p := rfl

/-! ### Priorities -/

theorem TxItem.prio_le_three (x : TxItem) : x.prio ≤ 3 := by
  cases x with
  | frame n f => exact Nat.le_of_lt_succ n.isLt
  | alert k n => exact (by decide : 2 ≤ 3)

theorem foldl_max_ge (q : List TxItem) : ∀ m : Nat, m ≤ q.foldl (fun a x => max a x.prio) m
    ∧ ∀ y ∈ q, y.prio ≤ q.foldl (fun a x => max a x.prio) m := by
  induction q with
  | nil => exact fun m => ⟨Nat.le_refl m, by simp⟩
  | cons x q ih =>
    intro m
    obtain ⟨start, all⟩ := ih (max m x.prio)
    refine ⟨le_trans (le_max_left _ _) start, fun y hy => ?_⟩
    rcases List.mem_cons.1 hy with rfl | hy
    · exact le_trans (le_max_right _ _) start
    · exact all y hy

theorem foldl_max_attained (q : List TxItem) : ∀ m : Nat,
    q.foldl (fun a x => max a x.prio) m = m ∨ ∃ y ∈ q, y.prio = q.foldl (fun a x => max a x.prio) m := by
  induction q with
  | nil => exact fun m => .inl rfl
  | cons x q ih =>
    intro m
    rcases ih (max m x.prio) with start | ⟨y, hy, top⟩
    · rcases Nat.le_total m x.prio with le | le
      · exact .inr ⟨x, by simp, by rw [List.foldl_cons, start, max_eq_right le]⟩
      · exact .inl (by rw [List.foldl_cons, start, max_eq_left le])
    · exact .inr ⟨y, by simp [hy], top⟩

theorem prio_le_maxPrio {q : List TxItem} {y : TxItem} (hy : y ∈ q) : y.prio ≤ maxPrio q := (foldl_max_ge q 0).2 y hy

/-- The largest priority number is some entry's, unless it is 0. -/
theorem maxPrio_attained {q : List TxItem} (h : 0 < maxPrio q) : ∃ y ∈ q, y.prio = maxPrio q :=
  (foldl_max_attained q 0).resolve_left (Nat.pos_iff_ne_zero.1 h)

theorem foldl_min_le (q : List TxItem) : ∀ m : Nat, q.foldl (fun a x => min a x.prio) m ≤ m
    ∧ ∀ y ∈ q, q.foldl (fun a x => min a x.prio) m ≤ y.prio := by
  induction q with
  | nil => exact fun m => ⟨Nat.le_refl m, by simp⟩
  | cons x q ih =>
    intro m
    obtain ⟨start, all⟩ := ih (min m x.prio)
    refine ⟨le_trans start (min_le_left _ _), fun y hy => ?_⟩
    rcases List.mem_cons.1 hy with rfl | hy
    · exact le_trans start (min_le_right _ _)
    · exact all y hy

theorem le_foldl_min {n : Nat} (q : List TxItem) : ∀ m : Nat, n ≤ m → (∀ y ∈ q, n ≤ y.prio) →
    n ≤ q.foldl (fun a x => min a x.prio) m := by
  induction q with
  | nil => exact fun m hm _ => hm
  | cons x q ih =>
    exact fun m hm all => ih _ (le_min hm (all x (by simp))) fun y hy => all y (by simp [hy])

/-- The smallest priority number of a queue, where an entry no larger than any other stands. -/
theorem minPrio_eq {q : List TxItem} {x : TxItem} (hx : x ∈ q) (least : ∀ y ∈ q, x.prio ≤ y.prio) :
    minPrio 3 q = x.prio :=
  Nat.le_antisymm ((foldl_min_le q 3).2 x hx) (le_foldl_min q 3 (TxItem.prio_le_three x) least)

/-! ### The entry that leaves a queue (R168, R169) -/

/-- R168: the entry taken is the first of its priority, and the others keep their order. -/
theorem takeOldest_eq_some {n : Nat} : ∀ {q rest : List TxItem} {x : TxItem}, takeOldest n q = .some (x, rest) →
    ∃ before after, q = before ++ x :: after ∧ rest = before ++ after ∧ x.prio = n
  | [], _, _, h => by cases h
  | y :: q, rest, x, h => by
    unfold takeOldest at h
    split at h
    · cases h; exact ⟨[], _, rfl, rfl, ‹_›⟩
    · obtain ⟨⟨z, l⟩, hz, e⟩ := Option.map_eq_some_iff.1 h
      cases e
      obtain ⟨before, after, hq, hl, hx⟩ := takeOldest_eq_some hz
      exact ⟨y :: before, after, by rw [hq]; rfl, by rw [hl]; rfl, hx⟩

/-- R169: the newest entry of a priority leaves the queue, the others keep their order. -/
theorem dropNewest_split (n : Nat) (before after : List TxItem) (x : TxItem) (h : ∀ y ∈ after, y.prio ≠ n)
    (hx : x.prio = n) : dropNewest n (before ++ x :: after) = before ++ after := by
  have reversed : (before ++ x :: after).reverse = after.reverse ++ x :: before.reverse := by simp
  have oldest := takeOldest_split n after.reverse before.reverse x (fun y hy => h y (List.mem_reverse.1 hy)) hx
  unfold dropNewest
  rw [reversed, oldest]
  simp

/-- The last entry of a priority. -/
theorem exists_newest {q : List TxItem} {n : Nat} (h : ∃ y ∈ q, y.prio = n) :
    ∃ before x after, q = before ++ x :: after ∧ x.prio = n ∧ ∀ y ∈ after, y.prio ≠ n := by
  induction q with
  | nil => simp at h
  | cons y q ih =>
    by_cases later : ∃ z ∈ q, z.prio = n
    · obtain ⟨before, x, after, rfl, hx, none⟩ := ih later
      exact ⟨y :: before, x, after, rfl, hx, none⟩
    · obtain ⟨z, hz, e⟩ := h
      rcases List.mem_cons.1 hz with rfl | hz
      · exact ⟨[], z, q, rfl, e, fun w hw hn => later ⟨w, hw, hn⟩⟩
      · exact absurd ⟨z, hz, e⟩ later

/-! ### Joining a queue (R167, R169) -/

theorem joinTx_room {q : PortState} (x : TxItem) (room : q.tx.length < 8) :
    joinTx q x = { q with tx := q.tx ++ [x] } := if_pos room

/-- R169: a full queue gives up the newest entry of its largest priority number to a smaller one. -/
theorem joinTx_displaces {q : PortState} {x : TxItem} (full : 8 ≤ q.tx.length) (smaller : x.prio < maxPrio q.tx) :
    ∃ before y after, q.tx = before ++ y :: after ∧ y.prio = maxPrio q.tx ∧ (∀ z ∈ after, z.prio ≠ y.prio)
      ∧ joinTx q x = countDrop { q with tx := before ++ after ++ [x] } y.prio := by
  obtain ⟨before, y, after, split, top, newest⟩ := exists_newest (maxPrio_attained (Nat.zero_lt_of_lt smaller))
  have left : dropNewest (maxPrio q.tx) q.tx = before ++ after := by
    rw [← top]
    conv_lhs => rw [split]
    exact dropNewest_split _ _ _ _ (by rwa [top]) rfl
  refine ⟨before, y, after, split, top, by rwa [top], ?_⟩
  exact (if_neg (Nat.not_lt.2 full)).trans ((if_pos smaller).trans (by rw [left, top]))

theorem joinTx_drops {q : PortState} {x : TxItem} (full : 8 ≤ q.tx.length) (least : maxPrio q.tx ≤ x.prio) :
    joinTx q x = countDrop q x.prio := (if_neg (Nat.not_lt.2 full)).trans (if_neg (Nat.not_lt.2 least))

/-- What joining a queue leaves: the entry at the end of what the queue keeps, or the queue as it was. -/
theorem joinTx_tx (q : PortState) (x : TxItem) : (joinTx q x).tx = q.tx
    ∨ ∃ kept, kept.Sublist q.tx ∧ (q.tx.length ≤ 8 → kept.length < 8) ∧ (joinTx q x).tx = kept ++ [x] := by
  by_cases room : q.tx.length < 8
  · exact .inr ⟨q.tx, List.Sublist.refl _, fun _ => room, by rw [joinTx_room x room]⟩
  · have full := Nat.not_lt.1 room
    by_cases smaller : x.prio < maxPrio q.tx
    · obtain ⟨before, y, after, split, -, -, joined⟩ := joinTx_displaces full smaller
      refine .inr ⟨before ++ after, ?_, fun bound => ?_, by rw [joined]; rfl⟩
      · rw [split]; exact (List.Sublist.refl before).append (List.sublist_cons_self y after)
      · rw [split, List.length_append, List.length_cons] at bound
        rw [List.length_append]; omega
    · exact .inl (by rw [joinTx_drops full (Nat.not_lt.1 smaller)]; rfl)

/-- Joining a transmit queue leaves the port's error count and state. -/
theorem joinTx_errors (q : PortState) (x : TxItem) :
    (joinTx q x).errCount = q.errCount ∧ (joinTx q x).errState = q.errState := by
  unfold joinTx
  split
  · exact ⟨rfl, rfl⟩
  · split <;> exact ⟨rfl, rfl⟩

/-! ### Sending (R168) -/

/-- R168: a start leaves the port's queue without the entry sent, and nothing else of the Link Unit changed. -/
theorem startTx_lu (s : State) (p : Port) : ∃ tx sending, tx.Sublist (portOf s.lu p).tx
    ∧ (startTx s p).lu = (updPort s p fun q => { q with tx := tx, sending := sending }).lu := by
  have same : (updPort s p fun q => { q with tx := (portOf s.lu p).tx, sending := (portOf s.lu p).sending }) = s := by
    cases p <;> rfl
  have idle : ∃ tx sending, tx.Sublist (portOf s.lu p).tx
      ∧ s.lu = (updPort s p fun q => { q with tx := tx, sending := sending }).lu :=
    ⟨_, _, List.Sublist.refl _, by rw [same]⟩
  unfold startTx
  dsimp only
  split
  · split
    · exact idle
    · rename_i x rest next
      obtain ⟨before, after, split, hrest, -⟩ := takeOldest_eq_some next
      refine ⟨rest, .some (renderTx (updPort s p fun q => { q with tx := rest }) x), ?_, ?_⟩
      · rw [split, hrest]; exact (List.Sublist.refl before).append (List.sublist_cons_self x after)
      · cases x <;> cases p <;> rfl
  · exact idle

/-- R168: with the port UP and idle, the oldest entry of the smallest priority number is sent. -/
theorem startTx_sends {s : State} {p : Port} {before after : List TxItem} {x : TxItem}
    (up : (portOf s.lu p).link = .up) (idle : (portOf s.lu p).sending = .none)
    (split : (portOf s.lu p).tx = before ++ x :: after) (first : ∀ y ∈ before, x.prio < y.prio)
    (least : ∀ y ∈ after, x.prio ≤ y.prio) :
    let left := updPort s p fun q => { q with tx := before ++ after }
    startTx s p = match x with
      | .frame _ f => updPort left p fun q => { q with sending := .some f }
      | .alert _ _ => { (updPort left p fun q => { q with sending := .some (renderTx left x) }) with
          freeCount := left.freeCount + 1 } := by
  have smallest : minPrio 3 (before ++ x :: after) = x.prio := by
    refine minPrio_eq (by simp) fun y hy => ?_
    rcases List.mem_append.1 hy with hy | hy
    · exact (first y hy).le
    · rcases List.mem_cons.1 hy with rfl | hy
      · exact Nat.le_refl _
      · exact least y hy
  have next : nextTx (portOf s.lu p).tx = .some (x, before ++ after) := by
    rw [nextTx, split, smallest]
    exact takeOldest_split _ _ _ _ (fun y hy => (first y hy).ne') rfl
  unfold startTx
  simp only [up, idle, and_self, if_true, next]
  cases x <;> rfl

theorem startTx_waits {s : State} {p : Port} (h : (portOf s.lu p).link = .down ∨ (portOf s.lu p).sending ≠ .none) :
    startTx s p = s := if_neg fun ⟨up, idle⟩ => h.elim (fun down => by rw [down] at up; cases up) fun busy => busy idle

theorem startTx_empty {s : State} {p : Port} (h : (portOf s.lu p).tx = []) : startTx s p = s := by
  unfold startTx
  dsimp only
  split
  · rw [h]; rfl
  · rfl

/-! ### ALERT contents and sets of bins -/

theorem foldl_bits (l : List Nat) : ∀ (acc : BitVec 48) (b : Nat), b < 48 →
    (l.foldl (fun acc b => acc ||| (1#48 <<< b)) acc).getLsbD b = (acc.getLsbD b || decide (b ∈ l)) := by
  induction l with
  | nil => simp
  | cons x l ih =>
    intro acc b hb
    rw [List.foldl_cons, ih _ b hb, BitVec.getLsbD_or, Bool.or_assoc]
    congr 1
    rw [Bool.eq_iff_iff]
    simp only [BitVec.getLsbD_shiftLeft, BitVec.getLsbD_one, Bool.or_eq_true, Bool.and_eq_true, decide_eq_true_eq,
      Bool.not_eq_true', decide_eq_false_iff_not, List.mem_cons]
    refine or_congr ?_ Iff.rfl
    omega

/-- R189: byte 5 − b / 8 of a set of bins carries bin b in bit b mod 8. -/
theorem binSetBytes_bit (l : List Nat) (b : Nat) (hb : b < 48) :
    ((binSetBytes l).getD (5 - b / 8) 0).getLsbD (b % 8) = true ↔ b ∈ l := by
  have bits := foldl_bits l 0 b hb
  simp only [BitVec.ofNat_eq_ofNat, BitVec.getLsbD_zero, Bool.false_or] at bits
  have place : ∀ k < 6, b / 8 = k → ((binSetBytes l).getD (5 - k) 0).getLsbD (b % 8)
      = (l.foldl (fun acc b => acc ||| (1#48 <<< b)) 0).getLsbD (8 * k + b % 8) := by
    intro k hk e
    have low : b % 8 < 8 := Nat.mod_lt _ (by decide)
    interval_cases k <;> simp [binSetBytes, low]
  rw [place (b / 8) (by omega) rfl, Nat.div_add_mod, BitVec.ofNat_eq_ofNat, bits, decide_eq_true_eq]

/-- R171: the two bin sets of a BIN alert, written out. -/
theorem alertContents_bin (s : State) : alertContents s .bin
    = binSetBytes ((List.range 48).filter fun n => n != 0 && (!(binAt s.bos n).outOfService
        && decide ((binAt s.bos n).capacity ≤ (binAt s.bos n).fill + (binAt s.bos n).reserved)))
      ++ binSetBytes ((List.range 48).filter fun n => n != 0 && (binAt s.bos n).outOfService) := by
  simp only [alertContents, fullSet, outSet, binFull, binOut, BinRecord.load, Bool.and_assoc]
  rfl

/-- Settles O48: joining, displacement and sending are each the lemma above, and the contents of an ALERT are the
model's with its two bin sets written out. -/
theorem transmissionsFollowPriorityAndAge : Obligations.TransmissionsFollowPriorityAndAge := by
  unfold Obligations.TransmissionsFollowPriorityAndAge
  intro bins line contents starts nextSent
  have contents_eq (s : State) (k : AlertKind) : alertContents s k = contents s k := by
    cases k with
    | bin => exact alertContents_bin s
    | _ => rfl
  have sends {s : State} {p : Port} {before after : List TxItem} {x : TxItem} (up : (portOf s.lu p).link = .up)
      (idle : (portOf s.lu p).sending = .none) (next : nextSent (portOf s.lu p).tx before x after) :
      startTx s p = starts (updPort s p fun q => { q with tx := before ++ after }) p x := by
    obtain ⟨split, first, least⟩ := next
    rw [startTx_sends up idle split first least]
    cases x with
    | frame n f => rfl
    | alert k n => simp only [renderTx, contents_eq]; rfl
  have alone (s : State) (p : Port) (f : PortState → PortState) :
      updPort s p f = updPort s p fun _ => f (portOf s.lu p) := by cases p <;> rfl
  refine ⟨fun l => ⟨rfl, fun b hb => binSetBytes_bit l b hb⟩, fun s p x => ⟨fun waits => ?_, ?_⟩,
    fun q x => ⟨?_, ?_, ?_⟩,
    fun s p up => ⟨?_, ?_⟩⟩
  · rw [enqueue, startTx_waits (by rwa [portOf_updPort]), alone]
  · intro before after y up idle next
    rw [enqueue, sends (by rwa [portOf_updPort]) (by rwa [portOf_updPort]) (by rwa [portOf_updPort]),
      updPort_updPort, alone]
  · exact fun room => joinTx_room x room
  · rintro full ⟨y, hy, smaller⟩
    obtain ⟨before, z, after, split, top, newest, joined⟩ :=
      joinTx_displaces full (lt_of_lt_of_le smaller (prio_le_maxPrio hy))
    have largest : ∀ w ∈ q.tx, w.prio ≤ z.prio := fun w hw => top ▸ prio_le_maxPrio hw
    refine ⟨before, after, z, split, largest, fun w hw => ?_, ?_⟩
    · exact lt_of_le_of_ne (largest w (by rw [split]; simp [hw])) (newest w hw)
    · rw [joined]; simp [countDrop]
  · intro full largest
    have least : maxPrio q.tx ≤ x.prio := by
      rcases foldl_max_attained q.tx 0 with zero | ⟨y, hy, top⟩
      · exact le_of_eq_of_le zero (Nat.zero_le _)
      · exact le_of_eq_of_le top.symm (largest y hy)
    rw [joinTx_drops full least]; simp [countDrop]
  · intro busy linked before after x next
    obtain ⟨f, hf⟩ := Option.ne_none_iff_exists'.1 busy
    rw [exec_transmissionComplete, taken_next s _ up]
    simp only [endTransmission, hf]
    rw [sends (by rwa [portOf_updPort]) (by rw [portOf_updPort]) (by rwa [portOf_updPort]), updPort_updPort]
  · intro busy waits
    obtain ⟨f, hf⟩ := Option.ne_none_iff_exists'.1 busy
    rw [exec_transmissionComplete, taken_next s _ up]
    simp only [endTransmission, hf]
    rcases waits with down | empty
    · rw [startTx_waits (.inl (by rwa [portOf_updPort]))]
    · rw [startTx_empty (by rwa [portOf_updPort])]

/-! ### Merging (R170) -/

theorem isAlert_iff (k : AlertKind) (x : TxItem) : x.isAlert k = true ↔ ∃ n, x = .alert k n := by
  cases x with
  | frame n f => simp [TxItem.isAlert]
  | alert j n => simp [TxItem.isAlert]

theorem alertPending_iff (s : State) (k : AlertKind) : alertPending s k = true ↔ ∃ n, TxItem.alert k n ∈ s.lu.d.tx := by
  simp only [alertPending, List.any_eq_true, isAlert_iff]
  constructor
  · rintro ⟨x, hx, n, rfl⟩; exact ⟨n, hx⟩
  · rintro ⟨n, hx⟩; exact ⟨_, hx, n, rfl⟩

theorem alertPending_eq_false_iff (s : State) (k : AlertKind) :
    alertPending s k = false ↔ s.lu.d.tx.countP (TxItem.isAlert k) = 0 := by
  rw [alertPending, List.any_eq_false, List.countP_eq_zero]

/-- A merge leaves every entry but the ALERT of its kind. -/
theorem bumpAlert_other {k : AlertKind} {x : TxItem} (h : ¬ x.isAlert k = true) : bumpAlert k x = x := by
  cases x with
  | frame n f => rfl
  | alert j n => exact if_neg fun e => h (by simp [TxItem.isAlert, e])

/-- A merge leaves every entry the kind it has. -/
theorem isAlert_bumpAlert (j k : AlertKind) (x : TxItem) : (bumpAlert k x).isAlert j = x.isAlert j := by
  cases x with
  | frame n f => rfl
  | alert i n => unfold bumpAlert; dsimp only; split <;> rfl

/-- Settles O49: no other entry of the queue is an ALERT of the kind, so the merge reaches the waiting one alone. -/
theorem alertsMergeWhileOneWaits : Obligations.AlertsMergeWhileOneWaits := by
  intro s k single
  refine ⟨fun none => if_neg fun pending => ?_, fun before after n waits => ?_⟩
  · obtain ⟨n, hn⟩ := (alertPending_iff s k).1 pending
    exact none n hn
  · have pending : alertPending s k = true := (alertPending_iff s k).2 ⟨n, by simp [waits]⟩
    have one := (single.1 k).1
    rw [waits, List.countP_append, List.countP_cons_of_pos (by simp [TxItem.isAlert])] at one
    have others (l : List TxItem) (none : l.countP (TxItem.isAlert k) = 0) : l.map (bumpAlert k) = l :=

      (List.map_congr_left fun x hx => bumpAlert_other (List.countP_eq_zero.1 none x hx)).trans (List.map_id l)
    have merged : s.lu.d.tx.map (bumpAlert k) = before ++ .alert k (min 255 (n + 1)) :: after := by
      rw [waits, List.map_append, List.map_cons, others before (by omega), others after (by omega)]
      simp [bumpAlert]
    rw [raiseAlert, if_pos pending, State.updLu, merged]
    cases k <;> rfl

end Sys2Proof.Proofs
end

section
/-! SUPPORT. The invariants of the Link Unit: the error bands, the single ALERTs and the bounds of its queues, each
kept by the elementary changes. -/

namespace Sys2Proof.Proofs

open Sys2Proof Sys2Proof.Machine

/-- Every port of a unit satisfies a property. -/
def bothPorts (P : PortState → Prop) (l : LinkUnit) : Prop := P l.u ∧ P l.d

theorem bothPorts_updPort {P : PortState → Prop} {s : State} (p : Port) {f : PortState → PortState}
    (hf : P (portOf s.lu p) → P (f (portOf s.lu p))) (h : bothPorts P s.lu) : bothPorts P (updPort s p f).lu := by
  cases p
  · exact ⟨hf h.1, h.2⟩
  · exact ⟨h.1, hf h.2⟩

/-! ### Error bands (R158, R159) -/

theorem errorBand_congr {q r : PortState} (hc : r.errCount = q.errCount) (hs : r.errState = q.errState)
    (h : errorBand q) : errorBand r := by
  unfold errorBand at *
  rwa [hc, hs]

/-- Table 9-2 judges a count into the band of the state it leaves. -/
theorem errorBand_judged (q : PortState) {n : Nat} (hn : n ≤ 255) :
    errorBand { q with errCount := n, errState := judgeError q.errState n } := by
  refine ⟨hn, ?_⟩
  cases state : q.errState <;> simp only [judgeError] <;> split_ifs <;> dsimp only <;> omega

theorem errorBands_closed : LinkClosed (bothPorts errorBand) where
  counts hu hd _ h := ⟨hu ▸ h.1, hd ▸ h.2⟩
  port p hf h := bothPorts_updPort p (errorBand_congr (hf _).2.1 (hf _).2.2) h
  judged p hn h := bothPorts_updPort p (fun band => errorBand_judged _ (hn.trans (max_le (Nat.le_refl _) band.1))) h
  received {_ q _} _ h := by cases q <;> exact h
  joined p _ _ h := bothPorts_updPort p (errorBand_congr (joinTx_errors _ _).1 (joinTx_errors _ _).2) h
  raised _ h := bothPorts_updPort .D (errorBand_congr (joinTx_errors _ _).1 (joinTx_errors _ _).2) h
  merged _ h := h
  started {s} p h := by
    obtain ⟨tx, sending, -, started⟩ := startTx_lu s p
    rw [started]; exact bothPorts_updPort p id h
  fresh := ⟨errorBand_atReset, errorBand_atReset⟩
  emptied h := h

/-- Settles O15: a count moves only where it is judged, and then into the band of the state it leaves. -/
theorem stepKeepsErrorBands : Obligations.StepKeepsErrorBands := fun _ _ hs =>
  step_keeps (I := ErrorBands) (fun _ _ h => h) (fun c _ h => errorBands_closed.effect c h)
    (fun _ _ => errorBands_closed.fresh) hs

/-! ### One ALERT of each kind (R170) -/

/-- `AlertsSingle` as a property of the Link Unit. -/
def alertsSingle (l : LinkUnit) : Prop :=
  (∀ k : AlertKind, l.d.tx.countP (TxItem.isAlert k) ≤ 1 ∧ l.u.tx.countP (TxItem.isAlert k) = 0)
    ∧ ∀ x ∈ l.d.tx, ∀ k n, x = .alert k n → 1 ≤ n ∧ n ≤ 255

theorem alertsSingle_of_sublist {l m : LinkUnit} (hu : m.u.tx.Sublist l.u.tx) (hd : m.d.tx.Sublist l.d.tx)
    (h : alertsSingle l) : alertsSingle m := by
  obtain ⟨single, counted⟩ := h
  exact ⟨fun k => ⟨(hd.countP_le).trans (single k).1, Nat.le_zero.1 (hu.countP_le.trans (single k).2.le)⟩,
    fun x hx => counted x (hd.subset hx)⟩

theorem alertsSingle_updPort {s : State} (p : Port) {f : PortState → PortState}
    (hf : (f (portOf s.lu p)).tx.Sublist (portOf s.lu p).tx) (h : alertsSingle s.lu) :
    alertsSingle (updPort s p f).lu := by
  cases p
  · exact alertsSingle_of_sublist (l := s.lu) hf (List.Sublist.refl _) h
  · exact alertsSingle_of_sublist (l := s.lu) (List.Sublist.refl _) hf h

/-- A frame that joins either queue is no ALERT. -/
theorem alertsSingle_joined {s : State} (p : Port) (n : Fin 4) (f : Frame) (h : alertsSingle s.lu) :
    alertsSingle (updPort s p fun q => joinTx q (.frame n f)).lu := by
  have joined (q : PortState) : (joinTx q (.frame n f)).tx = q.tx
      ∨ ∃ kept, kept.Sublist q.tx ∧ (joinTx q (.frame n f)).tx = kept ++ [.frame n f] :=
    (joinTx_tx q (.frame n f)).imp id fun ⟨kept, sub, _, e⟩ => ⟨kept, sub, e⟩
  have counts (k : AlertKind) (q : PortState) :
      (joinTx q (.frame n f)).tx.countP (TxItem.isAlert k) ≤ q.tx.countP (TxItem.isAlert k) := by
    obtain same | ⟨kept, sub, e⟩ := joined q
    · rw [same]
    · rw [e, List.countP_append]; exact sub.countP_le
  obtain ⟨single, counted⟩ := h
  cases p
  · exact ⟨fun k => ⟨(single k).1, Nat.le_zero.1 ((counts k _).trans (single k).2.le)⟩, counted⟩
  · refine ⟨fun k => ⟨(counts k _).trans (single k).1, (single k).2⟩, fun x hx k m e => ?_⟩
    subst e
    obtain same | ⟨kept, sub, e⟩ := joined s.lu.d
    · exact counted _ (same ▸ hx) k m rfl
    · have hx' : TxItem.alert k m ∈ kept ++ [.frame n f] := e ▸ hx
      have old : TxItem.alert k m ∈ kept := by simpa using hx'
      exact counted _ (sub.subset old) k m rfl

theorem alertsSingle_raised {s : State} {k : AlertKind} (none : alertPending s k = false) (h : alertsSingle s.lu) :
    alertsSingle (updPort s .D fun q => joinTx q (.alert k 1)).lu := by
  obtain ⟨single, counted⟩ := h
  obtain same | ⟨kept, sub, -, e⟩ := joinTx_tx s.lu.d (.alert k 1)
  · exact alertsSingle_updPort .D (by rw [show (joinTx (portOf s.lu .D) _).tx = _ from same]; exact List.Sublist.refl _)
      ⟨single, counted⟩
  · have tx : (updPort s .D fun q => joinTx q (.alert k 1)).lu.d.tx = kept ++ [.alert k 1] := e
    refine ⟨fun j => ⟨?_, (single j).2⟩, fun x hx i m ex => ?_⟩
    · rw [tx, List.countP_append]
      have old := sub.countP_le (p := TxItem.isAlert j)
      by_cases same : j = k
      · have zero := (alertPending_eq_false_iff s k).1 none
        subst same
        have one : [TxItem.alert j 1].countP (TxItem.isAlert j) ≤ 1 := List.countP_le_length
        omega
      · have other : [TxItem.alert k 1].countP (TxItem.isAlert j) = 0 := by
          simp [TxItem.isAlert, Ne.symm same]
        have := (single j).1
        omega
    · rw [tx, List.mem_append, List.mem_singleton] at hx
      obtain hx | hx := hx
      · exact counted x (sub.subset hx) i m ex
      · rw [hx] at ex; cases ex; exact ⟨Nat.le_refl 1, by decide⟩

theorem alertsSingle_merged {l : LinkUnit} (k : AlertKind) (m : PerAlert) (h : alertsSingle l) :
    alertsSingle { l with d := { l.d with tx := l.d.tx.map (bumpAlert k) }, merged := m } := by
  obtain ⟨single, counted⟩ := h
  refine ⟨fun j => ⟨?_, (single j).2⟩, fun x hx j n e => ?_⟩
  · rw [List.countP_map]
    exact (List.countP_congr fun x _ => by rw [Function.comp, isAlert_bumpAlert]).trans_le (single j).1
  · obtain ⟨y, hy, rfl⟩ := List.mem_map.1 hx
    cases y with
    | frame i f => cases e
    | alert i a =>
      have bounds := counted _ hy i a rfl
      unfold bumpAlert at e
      dsimp only at e
      split at e <;> cases e
      · omega
      · exact bounds

theorem alertsSingle_closed : LinkClosed alertsSingle where
  counts hu hd _ h := alertsSingle_of_sublist (hu ▸ List.Sublist.refl _) (hd ▸ List.Sublist.refl _) h
  port p hf h := alertsSingle_updPort p (by rw [(hf _).1]) h
  judged p _ h := alertsSingle_updPort p (List.Sublist.refl _) h
  received {_ q _} _ h := by cases q <;> exact h
  joined p n f h := alertsSingle_joined p n f h
  raised none h := alertsSingle_raised none h
  merged k h := alertsSingle_merged k _ h
  started {s} p h := by
    obtain ⟨tx, sending, sub, started⟩ := startTx_lu s p
    rw [started]; exact alertsSingle_updPort p sub h
  fresh := ⟨fun _ => ⟨Nat.zero_le _, rfl⟩, fun x hx => by cases hx⟩
  emptied h := alertsSingle_of_sublist (List.nil_sublist _) (List.nil_sublist _) h

/-- Settles O14: a new ALERT joins only where none of its kind waits, and a merge changes no entry's kind. -/
theorem stepKeepsOneAlertOfEachKind : Obligations.StepKeepsOneAlertOfEachKind := fun _ _ hs =>
  step_keeps (I := AlertsSingle) (fun _ _ h => h) (fun c _ h => alertsSingle_closed.effect c h)
    (fun _ _ => alertsSingle_closed.fresh) hs

/-! ### Bounds of the queues (R165, R167) -/

/-- The receive queues and transmit queues within their capacities. -/
def linkQueuesBounded (l : LinkUnit) : Prop :=
  (∀ q : QueueId, (rxQueue l q).length ≤ rxCapacity q) ∧ bothPorts (fun p => p.tx.length ≤ 8) l

theorem linkQueuesBounded_updPort {s : State} (p : Port) {f : PortState → PortState}
    (hf : (portOf s.lu p).tx.length ≤ 8 → (f (portOf s.lu p)).tx.length ≤ 8) (h : linkQueuesBounded s.lu) :
    linkQueuesBounded (updPort s p f).lu := by
  refine ⟨fun q => ?_, bothPorts_updPort p hf h.2⟩
  have kept := h.1 q
  cases p <;> cases q <;> exact kept

theorem joinTx_length {q : PortState} (x : TxItem) (h : q.tx.length ≤ 8) : (joinTx q x).tx.length ≤ 8 := by
  obtain same | ⟨kept, -, room, e⟩ := joinTx_tx q x
  · rwa [same]
  · rw [e, List.length_append]; exact room h

theorem rxQueue_setRxQueue (l : LinkUnit) (q r : QueueId) (fs : List (Port × Frame)) :
    rxQueue (setRxQueue l q fs) r = if r = q then fs else rxQueue l r := by
  cases q <;> cases r <;> rfl

theorem linkQueuesBounded_closed : LinkClosed linkQueuesBounded where
  counts hu hd hq h := ⟨fun q => hq q ▸ h.1 q, hu ▸ h.2.1, hd ▸ h.2.2⟩
  port p hf h := linkQueuesBounded_updPort p (by rw [(hf _).1]; exact id) h
  judged p _ h := linkQueuesBounded_updPort p id h
  received {l q fs} bound h := by
    refine ⟨fun r => ?_, by cases q <;> exact h.2⟩
    rw [rxQueue_setRxQueue]
    split
    · subst r; exact bound.elim id fun shorter => shorter.trans (h.1 q)
    · exact h.1 r
  joined p _ _ h := linkQueuesBounded_updPort p (joinTx_length _) h
  raised _ h := linkQueuesBounded_updPort .D (joinTx_length _) h
  merged k h := ⟨fun q => by have := h.1 q; cases q <;> exact this, h.2.1, (List.length_map _).trans_le h.2.2⟩
  started {s} p h := by
    obtain ⟨tx, sending, sub, started⟩ := startTx_lu s p
    rw [started]; exact linkQueuesBounded_updPort p sub.length_le.trans h
  fresh := ⟨fun q => by cases q <;> exact Nat.zero_le _, Nat.zero_le _, Nat.zero_le _⟩
  emptied _ := ⟨fun q => by cases q <;> exact Nat.zero_le _, Nat.zero_le _, Nat.zero_le _⟩

end Sys2Proof.Proofs
end

section
/-! SUPPORT. The line of slots: what its invariants speak of, the small changes that every command's effect on it is
made of, and, operation by operation, that each command makes no other (R10, R28, R44, R104). -/

namespace Sys2Proof.Proofs

open Sys2Proof Sys2Proof.Machine

/-! ### The line and its changes -/

/-- The slots with what is counted against them: the sequence they follow, the map buffers and the loss run, the bins
reserved for them, the lugs queued and at work with the set the job latched; and the stores that outlast them: the
tally and Table Memory with the request that accesses it. -/
structure Line where
  seq : LugSeq
  mode : LineMode
  ring : Vector Slot 64
  free : List Nat
  buffers : Vector (Sparse (BitVec 4)) 24
  lossRun : Nat
  bos : BinStore
  queue : List LugSeq
  job : Option (LugSeq × SetId)
  memory : TableMemory
  exec : Option InExec
  tally : Tally

/-- The line of a state. -/
def lineOf (s : State) : Line :=
  { seq := s.ct.seq, mode := s.ct.mode, ring := s.ring, free := s.sa.freeList, buffers := s.sa.buffers,
    lossRun := s.sa.lossRun, bos := s.bos, queue := s.opt.queue, job := s.opt.job.map fun j => (j.lug, j.set),
    memory := s.tm, exec := s.mg.exec, tally := s.tu }

/-- R10: the slot a lug addresses. -/
def Line.slot (l : Line) (lug : LugSeq) : Slot := l.ring[lug.toNat % 64]'(Nat.mod_lt _ (by decide))

/-- The line with the slot a lug addresses written. -/
def Line.put (l : Line) (lug : LugSeq) (sl : Slot) : Line :=
  { l with ring := l.ring.set (lug.toNat % 64) sl (Nat.mod_lt _ (by decide)) }

/-- R28: the line with the buffer of a slot, if it holds one, on the free list. -/
def Line.freed (l : Line) (lug : LugSeq) : Line :=
  { l.put lug { l.slot lug with buffer := .none } with free := l.free ++ (l.slot lug).buffer.toList }

/-- Two records of a slot that differ in nothing the line's invariants speak of. -/
structure Alike (a b : Slot) : Prop where
  seq : b.seq = a.seq
  origin : b.origin = a.origin
  buffer : b.buffer = a.buffer
  committed : b.committed = a.committed
  board : b.board = .present ↔ a.board = .present
  cuts : a.cuts.length ≤ 4 → b.cuts.length ≤ 4
  scan : (a.board = .present → a.scan ≠ .none) → b.board = .present → b.scan ≠ .none

theorem Alike.refl (a : Slot) : Alike a a := ⟨rfl, rfl, rfl, rfl, Iff.rfl, id, id⟩

/-- The fields of a slot that the line's invariants speak of. -/
def lineFields (sl : Slot) :
    LugSeq × LineMode × Board × Option ScanState × Option Nat × List Nat × Option Committed :=
  (sl.seq, sl.origin, sl.board, sl.scan, sl.buffer, sl.cuts, sl.committed)

theorem Alike.of_fields {a b : Slot} (h : lineFields b = lineFields a) : Alike a b := by
  simp only [lineFields, Prod.mk.injEq] at h
  obtain ⟨seq, origin, board, scan, buffer, cuts, committed⟩ := h
  exact ⟨seq, origin, buffer, committed, by rw [board], by rw [cuts]; exact id, by rw [board, scan]; exact id⟩

/-- R104, Table 11-6: a bin's load within its capacity, which is at most 4095. -/
def binWithin (r : BinRecord) : Prop := r.load ≤ r.capacity ∧ r.capacity ≤ 4095

/-- The bin a slot holds a reservation in. -/
def reservedBin (sl : Slot) : Option Nat := sl.committed.bind (·.bin)

/-- The run of a table write in execution holds an index. -/
def inRunOf (exec : Option InExec) (i : Nat) : Prop :=
  ∀ e ∈ exec, ∀ r ∈ e.work.writeRun, r.1 ≤ i ∧ i < r.1 + r.2

/-- A table write is in execution. -/
def writing (exec : Option InExec) : Prop := ∃ e ∈ exec, e.work.writeRun ≠ .none

/-- R138, R143, R175: the accesses of a memory are those of the request in execution, inside its run. -/
structure AccessGuarded (exec : Option InExec) (t : TableMemory) : Prop where
  owned : ∀ a ∈ t.access, a.kind.tableWrites = true → a.who = .management
  alone : ∀ a ∈ t.access, a.who = .management → t.waitMgmt = .none ∧ exec ≠ .none
  waits : t.waitMgmt ≠ .none → exec ≠ .none
  access : ∀ a ∈ t.access, (a.who = .management → inRunOf exec a.index) ∧ (a.kind.tableWrites = true → writing exec)
  waiting : ∀ w ∈ t.waitMgmt, inRunOf exec w.1 ∧ (w.2.tableWrites = true → writing exec)

/-- A change of Table Memory that no request of the Management Handler makes: words, maps and the active set stand,
and no access comes but one that was waiting. -/
structure QuietMemory (t u : TableMemory) : Prop where
  words : u.words = t.words
  map0 : u.map0 = t.map0
  map1 : u.map1 = t.map1
  active : u.active = t.active
  guarded : ∀ exec, AccessGuarded exec t → AccessGuarded exec u

/-- What changes of the line depend on besides it: the frames that wait in the SCAN queue (R40), and whether the
command works on Table Memory by itself, sets quotas, commits, or ends the tally's periods. -/
structure Given where
  waiting : Nat
  manages : Prop
  setsQuota : Prop
  commits : Prop
  closes : Prop

/-- The changes of the line. -/
inductive LineStep (given : Given) : Line → Line → Prop where
  | slots {l : Line} (r : Vector Slot 64) (alike : ∀ k : Fin 64, Alike l.ring[k] r[k]) :
    LineStep given l { l with ring := r }
  /-- R14: RUN is entered with a set active. -/
  | moded {l : Line} (m : LineMode) (enters : m = .run → l.memory.active ≠ .none) :
    LineStep given l { l with mode := m }
  /-- R5: the slot of the next lug. -/
  | next {l : Line} (sl : Slot) (freed : (l.slot (l.seq + 1)).buffer = .none) (seq : sl.seq = l.seq + 1)
    (origin : sl.origin = l.mode) (board : sl.board ≠ .present) (buffer : sl.buffer = .none)
    (committed : sl.committed = .none) (cuts : sl.cuts = []) :
    LineStep given l { l.put (l.seq + 1) sl with seq := l.seq + 1 }
  | freed {l : Line} (lug : LugSeq) : LineStep given l (l.freed lug)
  /-- R26: a board with the first free buffer, every cell clear. -/
  | opened {l : Line} (lug : LugSeq) (sl : Slot) (b : Nat) (rest : List Nat) (free : l.free = b :: rest)
    (absent : (l.slot lug).board ≠ .present) (seq : sl.seq = (l.slot lug).seq)
    (origin : sl.origin = (l.slot lug).origin) (buffer : sl.buffer = .some b)
    (committed : sl.committed = (l.slot lug).committed) (board : sl.board = .present)
    (cuts : sl.cuts = (l.slot lug).cuts) (scan : sl.scan ≠ .none) :
    LineStep given l { l.put lug sl with free := rest, buffers := l.buffers.setIfInBounds b [] }
  /-- R32: cells written into a map buffer. -/
  | filled {l : Line} (b : Nat) (cells : Sparse (BitVec 4))
    (canonical : sparseWf 0 ((l.buffers[b]?).getD []) = true → sparseWf 0 cells = true) :
    LineStep given l { l with buffers := l.buffers.setIfInBounds b cells }
  /-- R40: the loss run falls, or is set to the frames waiting. -/
  | lost {l : Line} (n : Nat) (bound : n ≤ l.lossRun ∨ n ≤ given.waiting) : LineStep given l { l with lossRun := n }
  | stored {l : Line} (b : BinStore) (quota : b.quota = l.bos.quota)
    (reserved : ∀ n ≤ 47, (binAt b n).reserved = (binAt l.bos n).reserved)
    (within : ∀ n ≤ 47, n ≠ 0 → binWithin (binAt l.bos n) → binWithin (binAt b n)) :
    LineStep given l { l with bos := b }
  /-- R115: a QUOTA-SET. -/
  | quotaSet {l : Line} (p : Nat) (q : Option Nat) (permitted : given.setsQuota) :
    LineStep given l { l with bos := setQuota l.bos p q }
  /-- R90, R91: a commitment, the reservation it makes and the quota it takes. -/
  | committed {l : Line} (lug : LugSeq) (sl : Slot) (b : BinStore) (seq : sl.seq = (l.slot lug).seq)
    (origin : sl.origin = (l.slot lug).origin) (buffer : sl.buffer = (l.slot lug).buffer)
    (board : sl.board = (l.slot lug).board) (cuts : sl.cuts = (l.slot lug).cuts) (scan : sl.scan = (l.slot lug).scan)
    (quota : b.quota = l.bos.quota ∨ given.commits ∧ ∃ p, b.quota = (takeQuota l.bos p).2.quota)
    (reserved : ∀ n ≤ 47,
      (binAt b n).reserved = (binAt l.bos n).reserved + if reservedBin sl = .some n then 1 else 0)
    (within : ∀ n ≤ 47, n ≠ 0 → binWithin (binAt l.bos n) → binWithin (binAt b n)) :
    LineStep given l { l.put lug sl with bos := b }
  /-- R101: a retirement and the delivery it ends. -/
  | retired {l : Line} (lug : LugSeq) (b : BinStore) (freed : (l.slot lug).buffer = .none)
    (quota : b.quota = l.bos.quota)
    (reserved : ∀ n ≤ 47,
      (binAt l.bos n).reserved ≤ (binAt b n).reserved + if reservedBin (l.slot lug) = .some n then 1 else 0)
    (within : ∀ n ≤ 47, n ≠ 0 → (reservedBin (l.slot lug) = .some n → 1 ≤ (binAt l.bos n).reserved) →
      binWithin (binAt l.bos n) → binWithin (binAt b n)) :
    LineStep given l { l.put lug (Slot.empty (l.slot lug).seq) with bos := b }
  /-- R44: a lug of a RUN slot joins the queue. -/
  | joined {l : Line} (lug : LugSeq) (off : LugSeq → Nat) (origin : (l.slot lug).origin = .run)
    (fresh : lug ∉ l.queue) (idle : ∀ j ∈ l.job, j.1 ≠ lug) (room : l.queue.length < 16) :
    LineStep given l { l with queue := insertByAge off lug l.queue }
  /-- R48, R49: the head of the queue goes to work, the active set latched. -/
  | started {l : Line} (lug : LugSeq) (rest : List LugSeq) (queue : l.queue = lug :: rest) :
    LineStep given l { l with queue := rest, job := .some (lug, l.memory.active.getD .s0) }
  | ended {l : Line} : LineStep given l { l with job := .none }
  | withdrawn {l : Line} (q : List LugSeq) (sub : q.Sublist l.queue) : LineStep given l { l with queue := q }
  /-- R15: the ring clearing. -/
  | cleared {l : Line} : LineStep given l { l with
      ring := emptyRing l.ring, free := l.free ++ heldBuffers l.ring.toList, bos := releaseAll l.ring.toList l.bos,
      queue := [], job := .none }
  /-- R21: a reset of the blocks along the line. -/
  | reset {l : Line} (b : BinStore) (quota : b.quota = l.bos.quota ∨ given.setsQuota ∧ b.quota = [])
    (reserved : ∀ n ≤ 47, (binAt b n).reserved = 0)
    (within : ∀ n ≤ 47, n ≠ 0 → binWithin (binAt l.bos n) → binWithin (binAt b n)) :
    LineStep given l { l with
      seq := 0, mode := .stop, ring := ringAtReset, free := List.range 24, lossRun := 0, bos := b, queue := []
      job := .none }
  | quiet {l : Line} (t : TableMemory) (quiet : QuietMemory l.memory t) : LineStep given l { l with memory := t }
  | managed {l : Line} (t : TableMemory) (e : Option InExec) (permitted : given.manages) :
    LineStep given l { l with memory := t, exec := e }
  /-- R120: a count added to the current period. -/
  | counted {l : Line} (x : TallyField) (n : Nat) :
    LineStep given l { l with tally := { l.tally with current := l.tally.current.add x n } }
  /-- R128, R133: the next period begins, or the tally is cleared. -/
  | closed {l : Line} (t : Tally) (permitted : given.closes)
    (canonical : sparseWf 0 l.tally.current.counts = true → sparseWf 0 t.current.counts = true
      ∧ ∀ c ∈ t.closed, sparseWf 0 c.period.counts = true) : LineStep given l { l with tally := t }

/-- The line of one state becomes that of another by such changes. -/
def Along (given : Given) (s t : State) : Prop := Relation.ReflTransGen (LineStep given) (lineOf s) (lineOf t)

section
variable {given : Given} {s t u : State}

theorem Along.refl (s : State) : Along given s s := Relation.ReflTransGen.refl

theorem Along.trans (h₁ : Along given s t) (h₂ : Along given t u) : Along given s u :=
  Relation.ReflTransGen.trans h₁ h₂

theorem Along.of_eq (h : lineOf t = lineOf s) : Along given s t := by unfold Along; rw [h]

theorem Along.of_step (h : LineStep given (lineOf s) (lineOf t)) : Along given s t := Relation.ReflTransGen.single h

/-- The blocks the line is read from. -/
def lineBlocks : List Block := [.ct, .ring, .sa, .opt, .bos, .tu, .tm, .mg]

theorem lineOf_eq {N : List Block} (h : unchangedBut N s t) (apart : ∀ b ∈ lineBlocks, b ∉ N) :
    lineOf t = lineOf s := by
  unfold lineOf
  rw [h .ct (apart _ (by decide)), h .ring (apart _ (by decide)), h .sa (apart _ (by decide)),
    h .opt (apart _ (by decide)), h .bos (apart _ (by decide)), h .tu (apart _ (by decide)),
    h .tm (apart _ (by decide)), h .mg (apart _ (by decide))]

theorem Along.of_frame {N : List Block} (h : unchangedBut N s t) (apart : ∀ b ∈ lineBlocks, b ∉ N) :
    Along given s t := Along.of_eq (lineOf_eq h apart)

/-- Whatever else happens to the line's bystanders. -/
theorem Along.frame {N : List Block} (h : Along given s t) (f : unchangedBut N t u)
    (apart : ∀ b ∈ lineBlocks, b ∉ N) : Along given s u := h.trans (Along.of_frame f apart)

theorem Along.ite {c : Prop} [Decidable c] (h₁ : Along given s t) (h₂ : Along given s u) :
    Along given s (if c then t else u) := by split <;> assumption

/-! ### Single slots -/

theorem alike_put {l : Line} (lug : LugSeq) {sl : Slot} (h : Alike (l.slot lug) sl) (k : Fin 64) :
    Alike l.ring[k] (l.put lug sl).ring[k] := by
  show Alike l.ring[k.val] ((l.ring.set (lug.toNat % 64) sl (Nat.mod_lt _ (by decide)))[k.val])
  by_cases same : lug.toNat % 64 = k.val
  · have at_lug : l.ring[k.val] = l.slot lug := by simp only [Line.slot, same]
    rw [at_lug]; simpa only [same, Vector.getElem_set_self] using h
  · rw [Vector.getElem_set_ne _ _ same]; exact Alike.refl _

theorem updSlot_along (lug : LugSeq) {f : Slot → Slot}
    (h : Alike (slotAt s lug) (f (slotAt s lug))) :
    Along given s (updSlot s lug f) :=
  .of_step (.slots _ (alike_put (l := lineOf s) lug h))

/-- A change of a slot that writes none of the fields the line's invariants speak of. -/
theorem updSlot_same_along (lug : LugSeq) {f : Slot → Slot}
    (same : lineFields (f (slotAt s lug)) = lineFields (slotAt s lug)) : Along given s (updSlot s lug f) :=
  updSlot_along lug (.of_fields same)

theorem lineOf_freeBuffer (s : State) (lug : LugSeq) : lineOf (freeBuffer s lug) = (lineOf s).freed lug := by
  rw [freeBuffer_eq]; rfl

theorem freeBuffer_along (s : State) (lug : LugSeq) : Along given s (freeBuffer s lug) :=
  .of_step (by rw [lineOf_freeBuffer]; exact .freed lug)

theorem Line.slot_put (l : Line) (lug : LugSeq) (sl : Slot) : (l.put lug sl).slot lug = sl :=
  Vector.getElem_set_self _

theorem Line.slot_freed (l : Line) (lug : LugSeq) :
    (l.freed lug).slot lug = { l.slot lug with buffer := .none } := l.slot_put lug _

/-- The line of a retirement. -/
theorem lineOf_retire (s : State) (lug : LugSeq) : lineOf (retire s lug) =
    ((lineOf s).freed lug).put lug (Slot.empty (((lineOf s).freed lug).slot lug).seq) := by
  rw [← lineOf_freeBuffer]; rfl

theorem updCt_along {f : Chain → Chain} (seq : (f s.ct).seq = s.ct.seq)
    (mode : (f s.ct).mode = s.ct.mode) : Along given s (s.updCt f) :=
  .of_eq (by unfold lineOf; simp only [State.updCt_ct, seq, mode]; rfl)

theorem updSa_along {f : ScanAssembler → ScanAssembler} (free : (f s.sa).freeList = s.sa.freeList)
    (buffers : (f s.sa).buffers = s.sa.buffers) (lossRun : (f s.sa).lossRun = s.sa.lossRun) :
    Along given s (s.updSa f) := .of_eq (by unfold lineOf; simp only [State.updSa_sa, free, buffers, lossRun]; rfl)

theorem lossRun_along {f : ScanAssembler → ScanAssembler} (free : (f s.sa).freeList = s.sa.freeList)
    (buffers : (f s.sa).buffers = s.sa.buffers)
    (bound : (f s.sa).lossRun ≤ s.sa.lossRun ∨ (f s.sa).lossRun ≤ given.waiting) : Along given s (s.updSa f) := by
  refine .of_step ?_
  have line : lineOf (s.updSa f) = { lineOf s with lossRun := (f s.sa).lossRun } := by
    unfold lineOf; simp only [State.updSa_sa, free, buffers]; rfl
  rw [line]; exact .lost _ bound

theorem updOpt_along {f : Optimizer → Optimizer} (queue : (f s.opt).queue = s.opt.queue)
    (job : (f s.opt).job.map (fun j => (j.lug, j.set)) = s.opt.job.map fun j => (j.lug, j.set)) :
    Along given s (s.updOpt f) := .of_eq (by unfold lineOf; simp only [State.updOpt_opt, queue, job]; rfl)

/-! ### The tally -/

theorem counted_line : ∀ (counts : List (TallyField × Nat)) (l : Line), Relation.ReflTransGen (LineStep given) l
    { l with tally := { l.tally with current := counts.foldl (fun t c => t.add c.1 c.2) l.tally.current } }
  | [], _ => .refl
  | (x, n) :: counts, _ => .head (.counted x n) (counted_line counts _)

theorem report_along (l : List (TallyField × Nat)) (s : State) : Along given s (s.report l) := counted_line l (lineOf s)

/-! ### Table Memory -/

theorem QuietMemory.refl (t : TableMemory) : QuietMemory t t := ⟨rfl, rfl, rfl, rfl, fun _ h => h⟩

theorem QuietMemory.trans {t u v : TableMemory} (h₁ : QuietMemory t u) (h₂ : QuietMemory u v) : QuietMemory t v :=
  ⟨h₂.words.trans h₁.words, h₂.map0.trans h₁.map0, h₂.map1.trans h₁.map1, h₂.active.trans h₁.active,
    fun exec h => h₂.guarded exec (h₁.guarded exec h)⟩

/-- What is none of the words', the maps' and the Management Handler's. -/
theorem QuietMemory.of_access {t u : TableMemory} (words : u.words = t.words) (map0 : u.map0 = t.map0)
    (map1 : u.map1 = t.map1) (active : u.active = t.active) (access : u.access = t.access)
    (waits : u.waitMgmt = t.waitMgmt) : QuietMemory t u :=
  ⟨words, map0, map1, active, fun exec h => by
    obtain ⟨owned, alone, asked, run, waiting⟩ := h
    exact ⟨access ▸ owned, access ▸ waits ▸ alone, waits ▸ asked, access ▸ run, waits ▸ waiting⟩⟩

theorem QuietMemory.ended (t : TableMemory) : QuietMemory t { t with access := .none } :=
  ⟨rfl, rfl, rfl, rfl, fun _ h => ⟨nofun, nofun, h.waits, nofun, h.waiting⟩⟩

theorem QuietMemory.disowned (t : TableMemory) (who : Requester) :
    QuietMemory t { t with access := disown who t.access } := by
  refine ⟨rfl, rfl, rfl, rfl, fun exec h => ?_⟩
  have same {a : Access} (ha : a ∈ disown who t.access) :
      ∃ b ∈ t.access, a.who = b.who ∧ a.index = b.index ∧ a.kind = b.kind := by
    obtain ⟨b, hb, rfl⟩ := Option.map_eq_some_iff.1 ha
    exact ⟨b, hb, by split <;> exact ⟨rfl, rfl, rfl⟩⟩
  refine ⟨fun a ha => ?_, fun a ha => ?_, h.waits, fun a ha => ?_, h.waiting⟩
  all_goals
    obtain ⟨b, hb, who, index, kind⟩ := same ha
    rw [who]
  · rw [kind]; exact h.owned b hb
  · exact h.alone b hb
  · rw [kind, index]; exact h.access b hb

/-- A grant to another requester than the Management Handler. -/
theorem QuietMemory.granted {t u : TableMemory} {a : Access} (words : u.words = t.words)
    (map0 : u.map0 = t.map0) (map1 : u.map1 = t.map1) (active : u.active = t.active) (waits : u.waitMgmt = t.waitMgmt)
    (access : u.access = .some a) (other : a.who ≠ .management) (reads : a.kind.tableWrites = false) :
    QuietMemory t u := by
  refine ⟨words, map0, map1, active, fun exec h => ?_⟩
  have only {b : Access} (hb : b ∈ u.access) : b = a := Option.some.inj (hb.symm.trans access)
  refine ⟨fun b hb writes => ?_, fun b hb mine => ?_, waits ▸ h.waits, fun b hb => ?_, waits ▸ h.waiting⟩
  all_goals rw [only hb] at *
  · rw [reads] at writes; cases writes
  · exact absurd mine other
  · exact ⟨fun mine => absurd mine other, fun writes => by rw [reads] at writes; cases writes⟩

/-- R138: a grant brings no access that was not waiting. -/
theorem grantNext_quiet (t : TableMemory) : QuietMemory t (grantNext t) := by
  unfold grantNext
  split
  · exact .granted rfl rfl rfl rfl rfl rfl nofun rfl
  · split
    · exact .granted rfl rfl rfl rfl rfl rfl nofun rfl
    · split
      · exact .granted rfl rfl rfl rfl rfl rfl nofun rfl
      · split
        · rename_i i k waiting
          refine ⟨rfl, rfl, rfl, rfl, fun exec h => ?_⟩
          have asked := h.waits (by rw [waiting]; nofun)
          have inRun := h.waiting _ waiting
          refine ⟨fun a ha _ => ?_, fun a ha _ => ⟨rfl, asked⟩, nofun, fun a ha => ?_, nofun⟩
          all_goals cases ha
          · rfl
          · exact ⟨fun _ => inRun.1, inRun.2⟩
        · exact .refl t

theorem Along.of_quiet {t : State} {N : List Block} (h : unchangedBut N s t) (quiet : QuietMemory s.tm t.tm)
    (apart : ∀ b ∈ lineBlocks, b ≠ .tm → b ∉ N) : Along given s t := by
  refine .of_step ?_
  have line : lineOf t = { lineOf s with memory := t.tm } := by
    unfold lineOf
    rw [h .ct (apart _ (by decide) (by decide)), h .ring (apart _ (by decide) (by decide)),
      h .sa (apart _ (by decide) (by decide)), h .opt (apart _ (by decide) (by decide)),
      h .bos (apart _ (by decide) (by decide)), h .tu (apart _ (by decide) (by decide)),
      h .mg (apart _ (by decide) (by decide))]
  rw [line]; exact .quiet _ quiet

theorem grant_quiet (s : State) : QuietMemory s.tm (grant s).tm := by
  unfold grant
  split
  · exact grantNext_quiet _
  · exact .refl _

theorem requestOpt_along (s : State) (i : Nat) : Along given s (requestOpt s i) :=
  .of_quiet (requestOpt_touches s i) (.trans (u := { s.tm with waitOpt := .some i })
    (.of_access rfl rfl rfl rfl rfl rfl) (grant_quiet (s.updTm fun t => { t with waitOpt := .some i }))) (by decide)

theorem requestCommit_along (s : State) (i : Nat) : Along given s (requestCommit s i) :=
  .of_quiet (requestCommit_touches s i) (.trans (u := { s.tm with waitCommit := .some i })
    (.of_access rfl rfl rfl rfl rfl rfl) (grant_quiet (s.updTm fun t => { t with waitCommit := .some i }))) (by decide)

theorem endAccess_along (s : State) : Along given s (endAccess s) :=
  .of_quiet (endAccess_touches s) (.trans (.ended _) (grant_quiet (s.updTm fun t => { t with access := .none })))
    (by decide)

theorem noteRead_quiet (s : State) (who : Requester) (i : Nat) : QuietMemory s.tm (noteRead s who i).tm := by
  unfold noteRead
  split
  · exact .refl _
  · exact .of_access rfl rfl rfl rfl rfl rfl
  · rw [raiseAlert_touches _ _ .tm (by decide)]
    exact .of_access rfl rfl rfl rfl rfl rfl

theorem noteRead_along (s : State) (who : Requester) (i : Nat) : Along given s (noteRead s who i) :=
  .of_quiet (noteRead_touches s who i) (noteRead_quiet s who i) (by decide)

theorem endRead_along (s : State) (who : Requester) (i : Nat) : Along given s (endAccess (noteRead s who i)) :=
  (noteRead_along s who i).trans (endAccess_along _)

theorem abandonOpt_quiet (t : TableMemory) : QuietMemory t (abandonOptAccess t) :=
  (QuietMemory.disowned t .optimizer).trans (.of_access rfl rfl rfl rfl rfl rfl)

theorem abandonCommit_quiet (t : TableMemory) : QuietMemory t (abandonCommitAccess t) :=
  (QuietMemory.disowned t .commit).trans (.of_access rfl rfl rfl rfl rfl rfl)

/-! ### The Chain Tracker -/

/-- The slots and the sequence after an advance, whatever is sent and handed over. -/
theorem lineOf_advance (s : State) (synthesized : Bool) : lineOf (advance s synthesized) =
    { ((lineOf s).freed (s.ct.seq + 1)).put (s.ct.seq + 1) (newSlot s (s.ct.seq + 1)) with seq := s.ct.seq + 1 } := by
  unfold advance
  refine (lineOf_eq ((unchangedBut.mono (N := [.lu, .freeCount, .handed]) (enqueue_touches _ _ _) (by decide)).next
    (updHanded_touches _ _) (by decide)) (by decide)).trans ?_
  rw [freeBuffer_eq]; rfl

theorem advance_along (s : State) (synthesized : Bool) : Along given s (advance s synthesized) := by
  refine Relation.ReflTransGen.tail (.single (.freed (s.ct.seq + 1))) ?_
  rw [lineOf_advance]
  refine .next (l := (lineOf s).freed _) _ (congrArg Slot.buffer ((lineOf s).slot_freed _)) rfl rfl ?_ rfl rfl rfl
  show (if _ then Board.unscanned else .none) ≠ _
  split <;> decide

theorem raiseAlert_along (k : AlertKind) : Along given s (raiseAlert s k) :=
  .of_frame (raiseAlert_touches s k) (by decide)

theorem missingIndex_along (s : State) : Along given s (missingIndex s) :=
  ((updCt_along (by rfl) (by rfl)).trans (raiseAlert_along .chain)).trans (advance_along _ _)

theorem countEvent_along (s : State) : Along given s (countEvent s) := by
  have counted : Along given s (handSwitchByCount (s.updCt fun c => { c with c := c.c + 1 })) := by
    refine Along.trans (updCt_along (f := fun c => { c with c := c.c + 1 }) rfl rfl) ?_
    unfold handSwitchByCount
    split
    · exact (updCt_along (by rfl) (by rfl)).frame (updHanded_touches _ _) (by decide)
    · exact .refl _
  exact (counted.trans (missingIndex_along _)).ite counted

theorem indexEvent_along (s : State) : Along given s (indexEvent s) :=
  (updCt_along (by rfl) (by rfl)).ite
    ((((updCt_along (by rfl) (by rfl)).trans (raiseAlert_along .chain)).trans (advance_along _ _)).ite
      (advance_along _ _))

/-! ### The Trim Optimizer -/

theorem askJobWord_along (s : State) : Along given s (askJobWord s) := by
  unfold askJobWord
  split
  · exact .refl s
  · rename_i job at_work
    have same {j : Job} (lug : j.lug = job.lug) (set : j.set = job.set) :
        Along given s (s.updOpt fun o => { o with job := .some j }) := updOpt_along rfl (by simp [at_work, lug, set])
    split
    · exact .refl s
    · split
      · exact .refl s
      · split
        · refine Along.trans (same ?_ ?_) (requestOpt_along _ _) <;> rfl
        · exact same rfl rfl

theorem startJob_along (s : State) : Along given s (startJob s) := by
  unfold startJob
  split
  · rename_i lug rest idle queue
    refine Along.trans ?_ (askJobWord_along _)
    refine Along.trans (t := State.updOpt s _) (.of_step (.started (l := lineOf s) lug rest queue))
      (updSlot_same_along lug (by rfl))
  · exact .refl s

theorem offerFull_along (s : State) (lug : LugSeq) : Along given s (offerFull s lug) := by
  unfold offerFull
  split
  · exact (updSlot_same_along lug (by rfl)).trans (updOpt_along (by rfl) (by rfl))
  · exact updOpt_along (by rfl) (by rfl)
  all_goals exact .refl s

theorem unFault_alike (sl : Slot) : Alike sl (unFault sl) := by
  unfold unFault
  split
  · exact ⟨rfl, rfl, rfl, rfl, Iff.rfl, id, id⟩
  · exact .refl sl

theorem unFault_origin (sl : Slot) : (unFault sl).origin = sl.origin := (unFault_alike sl).origin

theorem joinQueue_along {lug : LugSeq} (origin : (slotAt s lug).origin = .run) (fresh : lug ∉ s.opt.queue)
    (idle : ¬ isJobLug s lug = true) (room : s.opt.queue.length < 16) : Along given s (joinQueue s lug) := by
  have job : ∀ j ∈ (lineOf s).job, j.1 ≠ lug := fun j h same => idle (by
    obtain ⟨k, atWork, rfl⟩ := Option.map_eq_some_iff.1 h
    exact (isJobLug_iff s _).2 ⟨k, atWork, same⟩)
  have joined : Along given s (s.updOpt fun o => { o with queue := insertByAge (offset s) lug o.queue }) :=
    .of_step (.joined (l := lineOf s) lug (offset s) origin fresh job room)
  exact (joined.trans (updSlot_same_along lug (by rfl))).ite joined

theorem judgeOffer_along (s : State) (lug : LugSeq) : Along given s (judgeOffer s lug) := by
  unfold judgeOffer
  dsimp only
  split
  · exact .refl s
  · rename_i live
    simp only [not_or, not_not] at live
    obtain ⟨-, origin, -⟩ := live
    split
    · exact .refl s
    · rename_i out
      obtain ⟨fresh, idle⟩ := not_or.1 out
      have unFaulted : Along given s (updSlot s lug unFault) := updSlot_along lug (unFault_alike _)
      split
      · exact .refl s
      · split
        · exact unFaulted.trans (offerFull_along _ _)
        · rename_i room
          refine unFaulted.trans (joinQueue_along ?_ fresh idle (Nat.lt_of_not_le room))
          rw [slotAt_updSlot_same, unFault_origin]; exact origin

theorem offerLug_along (s : State) (lug : LugSeq) : Along given s (offerLug s lug) :=
  (judgeOffer_along s lug).trans (startJob_along _)

theorem endJob_along {f : Optimizer → Optimizer} (queue : (f s.opt).queue = s.opt.queue)
    (ended : (f s.opt).job = .none) : Along given s (s.updOpt f) := by
  refine .of_step ?_
  have line : lineOf (s.updOpt f) = { lineOf s with job := .none } := by
    unfold lineOf; simp only [State.updOpt_opt, queue, ended]; rfl
  rw [line]; exact .ended

theorem abandonJob_quiet (s : State) : QuietMemory s.tm (abandonJob s).tm := by
  unfold abandonJob
  split
  · exact .refl _
  · exact abandonOpt_quiet _

theorem abandonJob_along (s : State) : Along given s (abandonJob s) := by
  unfold abandonJob
  split
  · exact .refl s
  · exact (Along.trans (t := s.updOpt _) (endJob_along (by rfl) (by rfl)) (updOpt_along (by rfl) (by rfl))).trans
      (.of_quiet (updTm_touches _ _) (abandonOpt_quiet _) (by decide))

theorem discardResult_along (s : State) (lug : LugSeq) : Along given s (discardResult s lug) := by
  have counted : Along given s (s.updOptCounts fun c => { c with discarded := satInc c.discarded }) :=
    updOpt_along (by rfl) (by rfl)
  unfold discardResult
  dsimp only
  split
  · exact counted.trans ((Along.refl _).ite
      ((updSlot_same_along lug (by rfl)).trans (judgeOffer_along _ _)))
  · exact counted.trans ((updSlot_same_along lug (by rfl)).trans (judgeOffer_along _ _))

theorem jobOutcome_along (s : State) (job : Job) : Along given s (jobOutcome s job) := by
  unfold jobOutcome
  refine Along.ite (updOpt_along (by rfl) (by rfl)) (Along.ite (discardResult_along _ _) (Along.ite ?_ ?_))
  all_goals exact (updSlot_same_along _ (by rfl)).trans (updOpt_along (by rfl) (by rfl))

theorem completeJob_along (s : State) : Along given s (completeJob s) := by
  unfold completeJob
  split
  · exact .refl s
  · exact (((endJob_along (by rfl) (by rfl)).trans (jobOutcome_along _ _)).trans (startJob_along _)).ite (.refl s)

theorem jobReceives_kept (job : Job) (r : CheckResult) :
    (jobReceives job r).lug = job.lug ∧ (jobReceives job r).set = job.set := by
  unfold jobReceives; split <;> [exact ⟨rfl, rfl⟩; split <;> exact ⟨rfl, rfl⟩]

theorem giveJobWord_along (s : State) (r : CheckResult) : Along given s (giveJobWord s r) :=
  updOpt_along rfl (by
    show Option.map _ (Option.map _ _) = _
    rw [Option.map_map]
    refine Option.map_congr fun job _ => ?_
    obtain ⟨lug, set⟩ := jobReceives_kept job r
    exact Prod.ext lug set)

theorem endOptRead_along (s : State) : Along given s (endOptRead s) := by
  unfold endOptRead
  split
  · exact (((endRead_along _ _ _).trans ((giveJobWord_along _ _).trans (askJobWord_along _))).ite
      (endRead_along _ _ _)).ite (.refl s)
  · exact .refl s

theorem withdraw_along (lug : LugSeq) :
    Along given s (s.updOpt fun o => { o with queue := o.queue.filter (· != lug) }) :=
  .of_step (.withdrawn (l := lineOf s) _ (List.filter_sublist))

theorem optimizerLocks_along (s : State) (lug : LugSeq) : Along given s (optimizerLocks s lug) :=
  ((withdraw_along lug).trans (startJob_along _)).ite
    (((abandonJob_along s).trans (startJob_along _)).ite (startJob_along s))

end
end Sys2Proof.Proofs
end

section
/-! SUPPORT. The line of slots through the scan, mark, commit and store operations and the resets, and through each
command: the changes of the line are those of `LineStep` (R10, R28, R44, R104). -/

namespace Sys2Proof.Proofs

open Sys2Proof Sys2Proof.Machine

section
variable {given : Given} {s t u : State}

/-! ### The Scan Assembler -/

theorem endPartial_along (s : State) (lug : LugSeq) : Along given s (endPartial s lug) := by
  unfold endPartial
  have scanned : Along given s (updSlot s lug fun sl => { sl with scan := .some .partialScan, partialFlag := true }) :=
    updSlot_along lug ⟨rfl, rfl, rfl, rfl, Iff.rfl, id, fun _ _ => by simp⟩
  dsimp only
  split
  · exact (scanned.trans (offerLug_along _ _)).ite scanned
  · exact scanned.trans (updSlot_same_along lug (by rfl))

theorem completeScan_along (s : State) (lug : LugSeq) : Along given s (completeScan s lug) := by
  unfold completeScan
  have scanned : Along given s (updSlot s lug fun sl => { sl with scan := .some .complete }) :=
    updSlot_along lug ⟨rfl, rfl, rfl, rfl, Iff.rfl, id, fun _ _ => by simp⟩
  exact (endPartial_along s lug).ite ((scanned.trans (offerLug_along _ _)).ite scanned)

theorem completeIfClosed_along (s : State) (lug : LugSeq) : Along given s (completeIfClosed s lug) :=
  (completeScan_along s lug).ite (.refl s)

theorem endScanTake_along (s : State) : Along given s (endScanTake s) :=
  lossRun_along rfl rfl (.inl (Nat.sub_le _ _))

theorem scanDeadline_along (s : State) (lug : LugSeq) : Along given s (scanDeadline s lug) :=
  (endPartial_along s lug).ite (.refl s)

theorem scanCounts_along {f : ScanCounts → ScanCounts} : Along given s (s.updScanCounts f) :=
  updSa_along (by rfl) (by rfl) (by rfl)

theorem acceptOpen_along {lug : LugSeq} {b : Nat} {rest : List Nat} (raw width : Nat)
    (free : s.sa.freeList = b :: rest) (absent : (slotAt s lug).board = .none) :
    Along given s (acceptOpen s lug raw width b rest) :=
  (Relation.ReflTransGen.single (.opened (l := lineOf s) lug _ b rest free (absent ▸ by decide) rfl rfl rfl rfl rfl
    rfl (by simp))).trans (completeIfClosed_along _ lug)

theorem openBoard_along (s : State) (f : Frame) : Along given s (openBoard s f) := by
  unfold openBoard
  dsimp only
  refine scanCounts_along.ite (scanCounts_along.ite (scanCounts_along.ite ?_))
  split
  · exact scanCounts_along
  · rename_i absent
    rw [not_not] at absent
    refine scanCounts_along.ite ?_
    split
    · exact (updSlot_along f.tag ⟨rfl, rfl, rfl, rfl, by simp [absent], id, by simp⟩).trans
        scanCounts_along
    · rename_i free; exact acceptOpen_along _ _ free absent

theorem fillCell_canonical (e : HeadEntry) {w : Filling} (raw : Byte) (h : sparseWf 0 w.cells = true) :
    sparseWf 0 (fillCell e w raw).cells = true := by
  unfold fillCell
  split
  · exact h
  · dsimp only
    split
    · exact h
    · split
      · exact sparseSet_wf 0 _ _ h
      · exact h

theorem fillRun_canonical (e : HeadEntry) : ∀ (raws : List Byte) {w : Filling}, sparseWf 0 w.cells = true →
    sparseWf 0 (raws.foldl (fillCell e) w).cells = true
  | [], _, h => h
  | raw :: raws, _, h => fillRun_canonical e raws (fillCell_canonical e raw h)

theorem fillCells_along (s : State) (head : Nat) (cur : Cursor) (raws : List Byte) :
    Along given s (fillCells s head cur raws) := by
  unfold fillCells
  cases (slotAt s cur.tag).buffer with
  | none => exact updSa_along (by rfl) (by rfl) (by rfl)
  | some b => exact .of_step (.filled (l := lineOf s) b _ fun h => fillRun_canonical _ raws h)

theorem admitScan_along {lug : LugSeq} {head : Nat} {k : State → State} (hk : Along given s (k s)) :
    Along given s (admitScan s lug head k) :=
  scanCounts_along.ite (scanCounts_along.ite (scanCounts_along.ite hk))

theorem takeProfile_along (s : State) (f : Frame) : Along given s (takeProfile s f) :=
  scanCounts_along.ite (admitScan_along (scanCounts_along.ite
    ((fillCells_along _ _ _ _).ite (updSa_along (by rfl) (by rfl) (by rfl)))))

theorem continueWindow_along (s : State) (f : Frame) : Along given s (continueWindow s f) := by
  unfold continueWindow
  dsimp only
  split
  · exact scanCounts_along
  · exact (fillCells_along _ _ _ _).ite scanCounts_along

theorem takeProfileCont_along (s : State) (f : Frame) : Along given s (takeProfileCont s f) :=
  scanCounts_along.ite (admitScan_along (scanCounts_along.ite (continueWindow_along _ _)))

theorem closeHead_along (s : State) (lug : LugSeq) (head : Nat) : Along given s (closeHead s lug head) :=
  (scanCounts_along.ite ((updSlot_same_along lug (by rfl)).trans (completeIfClosed_along _ _))).ite scanCounts_along

theorem takeClose_along (s : State) (f : Frame) : Along given s (takeClose s f) :=
  scanCounts_along.ite (admitScan_along (closeHead_along _ _ _))

/-- R40: every OPEN scan marked. -/
theorem markLoss_along (s : State) : Along given s (s.updRing fun r =>
    vecMap (fun sl => if sl.scan = .some .opened then { sl with loss := true } else sl) r) := by
  refine .of_step (.slots _ fun k => ?_)
  show Alike s.ring[k] ((vecMap _ s.ring)[k])
  rw [getElem_vecMap]
  split
  · exact ⟨rfl, rfl, rfl, rfl, Iff.rfl, id, id⟩
  · exact .refl _

theorem scanOverflow_along (waiting : s.lu.scanQ.length ≤ given.waiting) : Along given s (scanOverflow s) :=
  ((lossRun_along (f := fun sa => { sa with
    lossRun := s.lu.scanQ.length, counts := { sa.counts with scanLoss := satInc sa.counts.scanLoss } })
    rfl rfl (.inr waiting)).trans
    (markLoss_along _)).frame (raiseAlert_touches _ .scanLoss) (by decide)

/-! ### The Mark Handler -/

theorem applyUnrejected_along (s : State) (lug : LugSeq) : Along given s (applyUnrejected s lug) :=
  ((updSlot_same_along lug (by rfl)).trans (offerLug_along _ _)).ite (updSlot_same_along lug (by rfl))

theorem applyGradeCut_along {lug : LugSeq} {f : Slot → Slot}
    (h : Alike (slotAt s lug) (f { slotAt s lug with revision := (slotAt s lug).revision + 1 })) :
    Along given s (applyGradeCut s lug f) :=
  ((updSlot_along lug h).trans (updSlot_same_along lug (by rfl))).ite
    ((updSlot_along lug h).trans (applyUnrejected_along _ _))

theorem applyCut_along {lug : LugSeq} (station : Nat) (room : (slotAt s lug).cuts.length < 4) :
    Along given s (applyCut s lug station) :=
  applyGradeCut_along ⟨rfl, rfl, rfl, rfl, Iff.rfl, fun _ => by simpa using room, id⟩

theorem applyReject_along (s : State) (lug : LugSeq) : Along given s (applyReject s lug) :=
  (updSlot_same_along lug (by rfl)).trans (withdraw_along lug)

theorem clearReject_along (s : State) (lug : LugSeq) : Along given s (clearReject s lug) := by
  unfold clearReject
  have cleared : Along given s (updSlot s lug fun sl => { sl with decision := .none }) :=
    updSlot_same_along lug (by rfl)
  have written {f : Slot → Slot} (h : ∀ sl, Alike sl (f sl)) :=
    cleared.trans (updSlot_along (given := given) lug (h (slotAt (updSlot s lug _) lug)))
  exact Along.ite (written fun _ => ⟨rfl, rfl, rfl, rfl, Iff.rfl, id, id⟩)
    (Along.ite (written fun _ => ⟨rfl, rfl, rfl, rfl, Iff.rfl, id, id⟩)
      (Along.ite (written fun _ => ⟨rfl, rfl, rfl, rfl, Iff.rfl, id, id⟩)
        ((written (f := fun sl => { sl with optState := .none, cause := .none })
          fun _ => ⟨rfl, rfl, rfl, rfl, Iff.rfl, id, id⟩).trans (offerLug_along _ _))))

theorem applyClear_along (s : State) (lug : LugSeq) : Along given s (applyClear s lug) := by
  have marks : Along given s (updSlot s lug fun sl =>
      { sl with revision := sl.revision + 1, cap := .none, cuts := [], reject := false }) :=
    updSlot_along lug ⟨rfl, rfl, rfl, rfl, Iff.rfl, fun _ => Nat.zero_le _, id⟩
  exact (marks.trans (clearReject_along _ _)).ite (marks.trans (applyUnrejected_along _ _))

theorem markReply_along {f : MarkCounts → MarkCounts} (p : Port) (x : TxItem) (l : List (TallyField × Nat)) :
    Along given s (((enqueue s p x).updMh f).report l) :=
  ((Along.of_frame (enqueue_touches s p x) (by decide)).frame (updMh_touches _ _) (by decide)).trans (report_along _ _)

theorem replyMark_along (s : State) (p : Port) (f : Frame) (r : MarkReply) : Along given s (replyMark s p f r) :=
  markReply_along _ _ _

theorem answerDropped_along (s : State) (p : Port) (f : Frame) : Along given s (answerDropped s p f) :=
  markReply_along _ _ _

theorem takeMark_along {effect : State → State} {p : Port} {f : Frame}
    (h : judgeMark s f = .accepted → Along given s (effect s)) : Along given s (takeMark s p f effect) := by
  refine Along.trans ?_ (replyMark_along _ p f _)
  split
  · exact h ‹_›
  · exact .refl s

/-- R72: an accepted CUT finds room in the cut list. -/
theorem judgeMark_accepted_cut {f : Frame} (cut : markKind f = 2) (h : judgeMark s f = .accepted) :
    (slotAt s f.tag).cuts.length < 4 := by
  unfold judgeMark at h
  dsimp only at h
  repeat' split at h
  all_goals cases h
  rename_i room
  exact Nat.lt_of_not_le fun full => room ⟨cut, full⟩

/-! ### The Commit Unit -/

/-- R106: what one more reservation does to the records. -/
theorem binAt_reserveIn (b : BinStore) {n : Nat} (m : Nat) (inRange : n ≤ 47) : binAt (reserveIn b n) m =
    if m = n then { binAt b n with reserved := (binAt b n).reserved + 1 } else binAt b m :=
  binAt_setBin b n m _ inRange

/-- R104: a bin that can be reserved exists. -/
theorem binOpen_le {b : BinStore} {n : Nat} (h : binOpen n (binAt b n) = true) : n ≤ 47 := by
  by_contra above
  have none : b.bins[n]? = none := Vector.getElem?_eq_none (by omega)
  have zero : n ≠ 0 := by omega
  simp [binOpen, binAt, none, zero, BinRecord.load] at h

/-- R90, R91: a commitment of a bin just reserved, whatever becomes of the quotas. -/
theorem reserved_along {lug : LugSeq} {n : Nat} {c : Committed} {d : Option Decision} {fl : CommitFlags}
    (bin : c.bin = .some n) (isOpen : binOpen n (binAt s.bos n) = true) (bins : t.bos.bins = (reserveIn s.bos n).bins)
    (quota : t.bos.quota = s.bos.quota ∨ given.commits ∧ ∃ p, t.bos.quota = (takeQuota s.bos p).2.quota)
    (line : lineOf t = { lineOf s with bos := t.bos }) : Along given s (writeCommit t lug c d fl) := by
  have inRange := binOpen_le isOpen
  have records (m : Nat) : binAt t.bos m = binAt (reserveIn s.bos n) m := by unfold binAt; rw [bins]
  have committed : Along given s (updSlot t lug fun sl => { sl with committed := .some c }) := by
    refine .of_step ?_
    have slot : slotAt t lug = slotAt s lug := slotAt_of_ring (congrArg Line.ring line) lug
    have after : lineOf (updSlot t lug fun sl => { sl with committed := .some c }) =
        { (lineOf s).put lug { slotAt s lug with committed := .some c } with bos := t.bos } := by
      show (lineOf t).put lug _ = _
      rw [line, slot]; rfl
    rw [after]
    refine .committed lug _ _ rfl rfl rfl rfl rfl rfl quota (fun m _ => ?_) fun m _ notCatch within => ?_
    · rw [records, binAt_reserveIn _ _ inRange]
      simp only [reservedBin, Option.bind_some, bin, Option.some.injEq, eq_comm (a := n)]
      split
      · subst m; rfl
      · rfl
    · rw [records, binAt_reserveIn _ _ inRange]
      split
      · subst m
        have room : (binAt s.bos n).load < (binAt s.bos n).capacity := by
          simp only [binOpen, Bool.or_eq_true, Bool.and_eq_true, decide_eq_true_eq, beq_iff_eq] at isOpen
          exact (isOpen.resolve_left notCatch).2
        exact ⟨room, within.2⟩
      · exact within
  exact (committed.frame (enqueue_touches _ _ _) (by decide)).trans (report_along _ _)

theorem lineOf_storeEvent (s : State) (f : BinStore → BinStore) :
    lineOf (storeEvent s f) = { lineOf s with bos := f s.bos } := by
  have touched := storeEvent_touches s f
  unfold lineOf
  rw [touched .ct (by decide), touched .ring (by decide), touched .sa (by decide), touched .opt (by decide),
    touched .tu (by decide), touched .tm (by decide), touched .mg (by decide), storeEvent_bos]

theorem lineOf_updBos (s : State) (f : BinStore → BinStore) :
    lineOf (s.updBos f) = { lineOf s with bos := f s.bos } := rfl

theorem reserveIn_along {lug : LugSeq} {n : Nat} {c : Committed} {d : Option Decision} {fl : CommitFlags}
    (bin : c.bin = .some n) (isOpen : binOpen n (binAt s.bos n) = true) :
    Along given s (writeCommit (storeEvent s fun b => reserveIn b n) lug c d fl) :=
  reserved_along bin isOpen (by rw [storeEvent_bos]) (.inl (by rw [storeEvent_bos]; rfl))
    (by rw [lineOf_storeEvent, storeEvent_bos])

theorem takeQuota_bins (b : BinStore) (p : Nat) : (takeQuota b p).2.bins = b.bins := by
  unfold takeQuota; split <;> rfl

theorem takeQuota_quota {b c : BinStore} (same : b.quota = c.quota) (p : Nat) :
    (takeQuota b p).2.quota = (takeQuota c p).2.quota := by
  unfold takeQuota quotaAt setQuota
  rw [same]
  split <;> simp only [same]

theorem commitPiece_along (commits : given.commits) (s : State) (lug : LugSeq) (d : Decision) (p : PieceData)
    (stale : Bool) : Along given s (commitPiece s lug d p stale) := by
  have taken {n : Nat} {t : State} (e : t = storeEvent s fun b => reserveIn b n)
      (isOpen : binOpen n (binAt s.bos n) = true) (c : Committed) (bin : c.bin = .some n) (fl : CommitFlags) :
      Along given s (writeCommit (t.updBos fun _ => (takeQuota t.bos p.product).2) lug c (.some d) fl) := by
    subst e
    exact reserved_along bin isOpen (by rw [State.updBos_bos, takeQuota_bins, storeEvent_bos])
      (.inr ⟨commits, p.product, takeQuota_quota (by rw [storeEvent_bos]; rfl) _⟩)
      (by rw [State.updBos_bos]
          rw [lineOf_updBos, lineOf_storeEvent])
  unfold commitPiece
  rw [askBins_eq]
  split
  · rename_i n found
    have isOpen : binOpen n (binAt s.bos n) = true := List.find?_some (p := fun n => binOpen n (binAt s.bos n)) found
    exact taken rfl isOpen _ rfl _
  · exact taken rfl rfl _ rfl _

theorem commitToCatch_along (s : State) (lug : LugSeq) (kind : CommitKind) (d : Option Decision) (stale : Bool) :
    Along given s (commitToCatch s lug kind d stale) := reserveIn_along rfl rfl

theorem commitBypass_along (s : State) (lug : LugSeq) : Along given s (commitBypass s lug) := by
  unfold commitBypass
  refine reserveIn_along rfl ?_
  split
  · assumption
  · rfl

theorem commitRecycle_along (s : State) (lug : LugSeq) (cause : Option RecycleCause) (stale : Bool) :
    Along given s (commitRecycle s lug cause stale) := by
  have caused : Along given s (updSlot s lug fun sl => { sl with cause := cause }) := updSlot_same_along lug (by rfl)
  have committed (t : State) (c : Committed) (none : c.bin = .none) :
      Along given t (updSlot t lug fun sl => { sl with committed := .some c }) :=
    .of_step (.committed (l := lineOf t) lug _ t.bos rfl rfl rfl rfl rfl rfl (.inl rfl)
      (fun m _ => by simp [reservedBin, none]; rfl) fun _ _ _ h => h)
  exact ((caused.trans (committed _ _ rfl)).frame (enqueue_touches _ _ _) (by decide)).trans (report_along _ _)

theorem commitDecision_along (commits : given.commits) (s : State) (lug : LugSeq) (d : Decision) (stale : Bool) :
    Along given s (commitDecision s lug d stale) := by
  unfold commitDecision
  split
  · exact commitPiece_along commits _ _ _ _ _
  all_goals exact commitToCatch_along _ _ _ _ _

theorem commitRegraded_along (commits : given.commits) (s : State) (lug : LugSeq) (d : Decision) (r : CheckResult) :
    Along given s (commitRegraded s lug d r) :=
      (updSlot_same_along lug (by rfl)).trans (commitDecision_along commits _ _ _ _)

theorem beginRegrade_along (commits : given.commits) (s : State) (lug : LugSeq) (d : Decision) :
    Along given s (beginRegrade s lug d) := by
  unfold beginRegrade
  split
  · exact (Along.of_frame (updCu_touches s _) (by decide)).trans (requestCommit_along _ _)
  · exact commitRegraded_along commits _ _ _ _

theorem judgeLock_along (commits : given.commits) (s : State) (lug : LugSeq) : Along given s (judgeLock s lug) := by
  unfold judgeLock
  refine (freeBuffer_along s lug).trans ?_
  dsimp only
  generalize freeBuffer s lug = t
  split
  · exact .refl t
  · exact commitBypass_along _ _
  · exact commitRecycle_along _ _ _ _
  · exact commitToCatch_along _ _ _ _ _
  · exact commitDecision_along commits _ _ _ _
  · exact beginRegrade_along commits _ _ _

theorem lockArrives_along (commits : given.commits) (s : State) (lug : LugSeq) : Along given s (lockArrives s lug) :=
  (Along.of_frame (updCu_touches s _) (by decide)).ite (judgeLock_along commits s lug)

theorem takeHeldLocks_along (commits : given.commits) : ∀ (l : List LugSeq) (s : State),
    Along given s (takeHeldLocks l s)
  | [], s => .refl s
  | lug :: rest, s =>
    (Along.of_frame (updCu_touches s _) (by decide)).ite
      ((judgeLock_along commits s lug).trans (takeHeldLocks_along commits rest _))

theorem completeCommit_along (commits : given.commits) (s : State) (fl : InFlight) (r : CheckResult) :
    Along given s (completeCommit s fl r) :=
  (((Along.of_frame (updCu_touches s _) (by decide)).trans (commitRegraded_along commits _ _ _ _)).trans
    (takeHeldLocks_along commits _ _)).frame (takeHeldSwitch_touches _) (by decide)

theorem endCommitRead_along (commits : given.commits) (s : State) : Along given s (endCommitRead s) := by
  unfold endCommitRead
  split
  · refine Along.ite (Along.ite ?_ (endRead_along _ _ _)) (.refl s)
    split
    · exact (endRead_along _ _ _).trans (completeCommit_along commits _ _ _)
    · exact endRead_along _ _ _
  · exact .refl s

/-! ### Sorting -/

theorem binAt_unreserve (b : BinStore) (n m : Nat) (inRange : n ≤ 47) : binAt (unreserve b n) m =
    if m = n then { binAt b n with reserved := (binAt b n).reserved - 1 } else binAt b m :=
  binAt_setBin b n m _ inRange

theorem binAt_addPiece (b : BinStore) (n m : Nat) (inRange : n ≤ 47) : binAt (addPiece b n) m =
    if m = n then { binAt b n with fill := min 65535 ((binAt b n).fill + 1) } else binAt b m := by
  unfold addPiece
  dsimp only
  rw [binAt_setBin _ _ _ _ inRange]
  by_cases same : m = n
  · rw [if_pos same, if_pos same]
  · rw [if_neg same, if_neg same]; split <;> rfl

/-- R107: a delivery takes one reservation from its bin. -/
theorem deliver_reserved (b : BinStore) {n : Nat} (m : Nat) (inRange : n ≤ 47) :
    (binAt b m).reserved ≤ (binAt (deliver b n).2.2 m).reserved + if .some n = some m then 1 else 0 := by
  unfold deliver
  split
  all_goals
    simp only [binAt_addPiece _ _ _ inRange, binAt_addPiece _ 0 _ (Nat.zero_le _), binAt_unreserve _ _ _ inRange,
      Option.some.injEq, eq_comm (a := n)]
    repeat' split
    all_goals first | omega | (subst_vars; dsimp only; omega)

/-- R107: the piece delivered takes the place of its reservation. -/
theorem binWithin_filled {r : BinRecord} (covered : 1 ≤ r.reserved) (h : binWithin r) :
    binWithin { r with fill := min 65535 (r.fill + 1), reserved := r.reserved - 1 } := by
  obtain ⟨load, capacity⟩ := h
  have stops := Nat.min_le_right 65535 (r.fill + 1)
  refine ⟨?_, capacity⟩
  show min 65535 (r.fill + 1) + (r.reserved - 1) ≤ r.capacity
  have load : r.fill + r.reserved ≤ r.capacity := load
  generalize min 65535 (r.fill + 1) = filled at *
  omega

theorem binWithin_released {r : BinRecord} (h : binWithin r) : binWithin { r with reserved := r.reserved - 1 } :=
  ⟨(Nat.add_le_add_left (Nat.sub_le _ _) _).trans h.1, h.2⟩

/-- R107: but for the catch bin, no bin is filled past what was reserved. -/
theorem deliver_within (b : BinStore) {n m : Nat} (inRange : n ≤ 47) (notCatch : m ≠ 0)
    (covered : .some n = some m → 1 ≤ (binAt b m).reserved) (h : binWithin (binAt b m)) :
    binWithin (binAt (deliver b n).2.2 m) := by
  unfold deliver
  split
  · rw [binAt_addPiece _ _ _ (Nat.zero_le _), if_neg notCatch, binAt_unreserve _ _ _ inRange]
    split
    · subst m; exact binWithin_released h
    · exact h
  · rw [binAt_addPiece _ _ _ inRange, binAt_unreserve _ _ _ inRange, binAt_unreserve _ _ _ inRange, if_pos rfl]
    split
    · subst m; exact binWithin_filled (covered rfl) h
    · exact h

/-- R107: a bin above 47 does not exist, and takes nothing. -/
theorem deliver_above (b : BinStore) {n m : Nat} (above : 47 < n) :
    binAt (deliver b n).2.2 m = binAt b m := by
  have outside (b : BinStore) (r : BinRecord) : (setBin b n r).bins = b.bins := by
    unfold setBin; ext i hi : 2; exact Vector.getElem_setIfInBounds_ne (by omega) (by omega)
  have none : b.bins[n]? = none := Vector.getElem?_eq_none (by omega)
  unfold deliver
  rw [if_neg (by simp [binAt, none])]
  unfold addPiece unreserve binAt
  dsimp only
  rw [if_neg (by omega), outside, outside]

theorem retire_along (s : State) (lug : LugSeq) : Along given s (retire s lug) := by
  refine Relation.ReflTransGen.tail (.single (.freed lug)) ?_
  rw [lineOf_retire]
  exact .retired lug s.bos (congrArg Slot.buffer ((lineOf s).slot_freed lug)) rfl (fun _ _ => Nat.le_add_right _ _)
    fun _ _ _ _ h => h

/-- R107: the store after the delivery of a commitment, which may hold no bin. -/
def delivered (c : Committed) (b : BinStore) : BinStore :=
  match c.bin with
  | .none => b
  | .some n => (deliver b n).2.2

theorem delivered_quota (c : Committed) (b : BinStore) : (delivered c b).quota = b.quota := by
  have added (b : BinStore) (n : Nat) : (addPiece b n).quota = b.quota := by
    unfold addPiece setBin; dsimp only; split <;> rfl
  unfold delivered deliver
  split
  · rfl
  · split <;> exact added _ _

/-- The line of a sort, but for the tally its counts are added to. -/
theorem lineOf_sortCommitted (s : State) (lug : LugSeq) (c : Committed) : ∃ counts, lineOf (sortCommitted s lug c) =
    { ((lineOf s).freed lug).put lug (Slot.empty (((lineOf s).freed lug).slot lug).seq) with
      bos := delivered c s.bos, tally := (s.report counts).tu } := by
  have sent (t : State) (x : TxItem) (l : List (TallyField × Nat)) :
      lineOf ((enqueue t .D x).report l) = { lineOf t with tally := (t.report l).tu } := by
    have line := lineOf_eq (enqueue_touches t .D x) (by decide)
    show { lineOf (enqueue t .D x) with tally := ((enqueue t .D x).report l).tu } = _
    rw [line, State.report_tu, enqueue_touches t .D x .tu (by decide), State.report_tu]
  unfold sortCommitted delivered
  cases c.bin with
  | none => exact ⟨sortCounts c .none false, by dsimp only; rw [lineOf_retire, sent]; rfl⟩
  | some n =>
    refine ⟨sortCounts c (.some (deliver s.bos n).1) (deliver s.bos n).2.1, ?_⟩
    dsimp only
    rw [lineOf_retire, sent, lineOf_storeEvent, State.report_tu, storeEvent_touches s _ .tu (by decide),
      ← State.report_tu]
    rfl

theorem sortCommitted_along {lug : LugSeq} {c : Committed} (committed : (slotAt s lug).committed = .some c) :
    Along given s (sortCommitted s lug c) := by
  obtain ⟨counts, line⟩ := lineOf_sortCommitted s lug c
  unfold Along
  rw [line]
  refine Relation.ReflTransGen.trans (.tail (.single (.freed lug)) ?_) (counted_line counts
    { ((lineOf s).freed lug).put lug (Slot.empty (((lineOf s).freed lug).slot lug).seq) with bos := delivered c s.bos })
  have slot : ((lineOf s).freed lug).slot lug = { slotAt s lug with buffer := .none } := (lineOf s).slot_freed lug
  have holds : reservedBin (((lineOf s).freed lug).slot lug) = c.bin := by
    rw [slot]; simp [reservedBin, committed]
  refine .retired lug _ (congrArg Slot.buffer slot) (delivered_quota _ _) (fun m inRange => ?_)
    fun m inRange notCatch covered within => ?_
  · rw [holds]
    unfold delivered
    split
    · exact Nat.le_add_right _ _
    · rename_i n bin
      rw [bin]
      by_cases exists_ : n ≤ 47
      · exact deliver_reserved _ _ exists_
      · rw [deliver_above _ (by omega)]; exact Nat.le_add_right _ _
  · rw [holds] at covered
    unfold delivered
    split
    · exact within
    · rename_i n bin
      by_cases exists_ : n ≤ 47
      · exact deliver_within _ exists_ notCatch (bin ▸ covered) within
      · rw [deliver_above _ (by omega)]; exact within

theorem sortArrives_along (s : State) (lug : LugSeq) : Along given s (sortArrives s lug) := by
  unfold sortArrives
  split
  · exact retire_along s lug
  · exact sortCommitted_along ‹_›

/-! ### The Bin and Order Store -/

/-- A bin event that leaves what is reserved, and the load within the capacity. -/
theorem storeEvent_along {f : BinStore → BinStore} {n : Nat} {r : BinRecord} (record : f s.bos = setBin s.bos n r)
    (inRange : n ≤ 47) (reserved : r.reserved = (binAt s.bos n).reserved)
    (within : n ≠ 0 → binWithin (binAt s.bos n) → binWithin r) : Along given s (storeEvent s f) := by
  refine .of_step ?_
  rw [lineOf_storeEvent, record]
  refine .stored _ rfl (fun m _ => ?_) fun m _ notCatch h => ?_
  · rw [binAt_setBin _ _ _ _ inRange]
    split
    · subst m; exact reserved
    · rfl
  · rw [binAt_setBin _ _ _ _ inRange]
    split
    · subst m; exact within notCatch h
    · exact h

theorem updBos_along {f : BinStore → BinStore} (bins : (f s.bos).bins = s.bos.bins)
    (quota : (f s.bos).quota = s.bos.quota) : Along given s (s.updBos f) := by
  have same (m : Nat) : binAt (f s.bos) m = binAt s.bos m := by unfold binAt; rw [bins]
  refine .of_step (.stored (f s.bos) quota (fun m _ => ?_) fun m _ _ h => ?_)
  · exact congrArg BinRecord.reserved (same m)
  · rw [same]; exact h

theorem binEmptied_along (s : State) (body : List Byte) : Along given s (binEmptied s body) := by
  unfold binEmptied countBadBin
  dsimp only
  split
  · exact updBos_along (by rfl) (by rfl)
  · exact storeEvent_along rfl (by omega) rfl fun _ ⟨load, capacity⟩ =>
      ⟨(Nat.add_le_add_right (Nat.zero_le _) _).trans load, capacity⟩

theorem binService_along (s : State) (body : List Byte) : Along given s (binService s body) := by
  unfold binService countBadBin
  dsimp only
  split
  · exact updBos_along (by rfl) (by rfl)
  · have served (out : Bool) : Along given s (storeEvent s fun b => setService b (num8 body 0) out) :=
      storeEvent_along rfl (by omega) rfl fun _ h => h
    exact (updBos_along (by rfl) (by rfl)).ite ((served true).ite ((served false).ite (updBos_along (by rfl) (by rfl))))

theorem reply_along (p : Port) (f : Frame) (r : Result) (data : List Byte) : Along given s (reply s p f r data) :=
  .of_frame (reply_touches s p f r data) (by decide)

theorem binWrite_along (s : State) (p : Port) (f : Frame) : Along given s (binWrite s p f) := by
  unfold binWrite
  dsimp only
  split
  · exact reply_along _ _ _ _
  · rename_i sound
    have written {capacity : Nat} (covers : num8 (requestArgs f) 0 ≠ 0 →
        binWithin (binAt s.bos (num8 (requestArgs f) 0)) →
        (binAt s.bos (num8 (requestArgs f) 0)).load ≤ capacity ∧ capacity ≤ 4095) :
        Along given s (setCapacity s (num8 (requestArgs f) 0) capacity) :=
      storeEvent_along rfl (by omega) rfl covers
    split
    · exact ((written fun _ h => ⟨Nat.le_refl _, h.1.trans h.2⟩).trans (updBos_along (by rfl) (by rfl))).trans
        (reply_along _ _ _ _)
    · exact (written fun _ _ => by omega).trans (reply_along _ _ _ _)

theorem quotaSet_along (permitted : given.setsQuota) (s : State) (p : Port) (f : Frame) :
    Along given s (quotaSet s p f) := by
  unfold quotaSet
  dsimp only
  exact Along.ite (reply_along _ _ _ _)
    (Along.trans (.of_step (.quotaSet (l := lineOf s) _ _ permitted)) (reply_along _ _ _ _))

/-! ### The ring clearing and the resets -/

theorem abandonJob_line (s : State) :
    (abandonJob s).opt.queue = s.opt.queue ∧ (abandonJob s).opt.job = .none := by
  unfold abandonJob
  split
  · exact ⟨rfl, ‹_›⟩
  · exact ⟨rfl, rfl⟩

theorem lineOf_clearRing (s : State) : lineOf (clearRing s) = { lineOf s with
    ring := emptyRing s.ring, free := s.sa.freeList ++ heldBuffers s.ring.toList,
    bos := releaseAll s.ring.toList s.bos, queue := [], job := .none
    memory := abandonCommitAccess (abandonJob s).tm, tally := (s.report [(.clearings, 1)]).tu } := by
  rw [clearRing_eq]
  unfold lineOf
  dsimp only
  rw [storeEvent_bos, (abandonJob_line s).2, storeEvent_touches s _ .mg (by decide)]
  rfl

theorem clearRing_along (s : State) : Along given s (clearRing s) := by
  unfold Along
  rw [lineOf_clearRing]
  exact .tail (.tail (.single .cleared) (.quiet _ ((abandonJob_quiet s).trans (abandonCommit_quiet _))))
    (.counted .clearings 1)

theorem setMode_along {m : LineMode} (enters : m = .run → s.tm.active ≠ .none) : Along given s (setMode s m) :=
  .of_step (.moded (l := lineOf s) m enters)

/-- R14: RUN is entered only with a set active. -/
theorem changeMode_along (s : State) (m : LineMode) : Along given s (changeMode s m).2 := by
  unfold changeMode
  split
  iterate 3 exact .refl s
  iterate 2 exact (clearRing_along s).trans (setMode_along nofun)
  iterate 2 exact setMode_along nofun
  all_goals
    split
    · rename_i active; exact setMode_along fun _ => Option.isSome_iff_ne_none.1 active
    · exact .refl s

theorem modeRequest_along (s : State) (p : Port) (f : Frame) : Along given s (modeRequest s p f) := by
  unfold modeRequest
  split
  · exact reply_along _ _ _ _
  · exact (changeMode_along _ _).trans (reply_along _ _ _ _)

theorem binAt_resetStore {b : BinStore} {n : Nat} (inRange : n ≤ 47) :
    binAt (resetStore b) n = { binAt b n with reserved := 0 } := by
  have read (c : BinStore) : binAt c n = c.bins[(⟨n, by omega⟩ : Fin 48)] := by
    have : n < 48 := by omega
    simp [binAt, this]
  rw [read, read]
  exact getElem_vecMap _ _ _

/-- R21: a reset of the blocks along the line, that of Table Memory, and the clearing counted. -/
theorem resetBlocks_along (manages : given.manages) (t : State) (line : lineOf t = { lineOf s with
    seq := 0, mode := .stop, ring := ringAtReset, free := List.range 24, lossRun := 0, bos := resetStore s.bos
    queue := [], job := .none, memory := t.tm, exec := t.mg.exec, tally := (s.report [(.clearings, 1)]).tu }) :
    Along given s t := by
  unfold Along
  rw [line]
  refine .tail (.tail (.single (.reset (resetStore s.bos) (.inl rfl) (fun n inRange => ?_)
    fun n inRange _ within => ?_)) (.managed t.tm t.mg.exec manages)) (.counted .clearings 1)
  · rw [binAt_resetStore inRange]
  · rw [binAt_resetStore inRange]
    exact ⟨(Nat.add_le_add_left (Nat.zero_le _) _).trans within.1, within.2⟩

theorem releaseReset_along (manages : given.manages) (s : State) : Along given s (releaseReset s) :=
  resetBlocks_along manages _ rfl

theorem softReset_along (manages : given.manages) (s : State) : Along given s (softReset s) :=
  resetBlocks_along manages _ rfl

theorem powerOn_along (manages : given.manages) (sets : given.setsQuota) (closes : given.closes) (s : State) :
    Along given s (powerOn s) := by
  refine .tail (.tail (.single (.reset BinStore.atPowerOn (.inr ⟨sets, rfl⟩) (fun n _ => ?_) fun n _ _ _ => ?_))
    (.managed (TableMemory.atPowerOn s.tm.words) .none manages)) (.closed Tally.atPowerOn closes fun _ => ⟨rfl, nofun⟩)
  all_goals rw [binAt_atPowerOn]
  exact ⟨Nat.le_refl 0, Nat.zero_le _⟩

/-- A change of Table Memory, and of the request that accesses it, alone. -/
theorem Along.of_managed {N : List Block} {t : State} (manages : given.manages) (h : unchangedBut N s t)
    (apart : ∀ b ∈ lineBlocks, b ≠ .tm → b ≠ .mg → b ∉ N) : Along given s t := by
  refine .of_step ?_
  have line : lineOf t = { lineOf s with memory := t.tm, exec := t.mg.exec } := by
    unfold lineOf
    rw [h .ct (apart _ (by decide) (by decide) (by decide)), h .ring (apart _ (by decide) (by decide) (by decide)),
      h .sa (apart _ (by decide) (by decide) (by decide)), h .opt (apart _ (by decide) (by decide) (by decide)),
      h .bos (apart _ (by decide) (by decide) (by decide)), h .tu (apart _ (by decide) (by decide) (by decide))]
  rw [line]; exact .managed _ _ manages

theorem endSweep_along (manages : given.manages) (s : State) : Along given s (endSweep s) :=
  Along.ite (.tail (.single (.managed _ _ manages)) (.moded (l := { lineOf s with memory := _ }) .stop nofun)) (.refl s)

theorem misrouted_along (s : State) (q : QueueId) : Along given s (misrouted s q) := by
  unfold misrouted
  split
  · exact .refl s
  · refine Along.ite (.refl s) ?_
    have counted {f : LinkUnit → LinkUnit} : Along given s ((popRx s q).updLu f) :=
      (Along.of_frame (popRx_touches s q) (by decide)).frame (updLu_touches _ _) (by decide)
    exact (counted.trans (endScanTake_along _)).ite counted

theorem copyAccess_along (manages : given.manages) (s : State) (a : Access) (e : InExec) :
    Along given s (copyAccess s a e) := by
  have finished (t : State) (sid : SetId) (words : List Word) : Along given t (finishSelect t e sid words) :=
    ((Along.of_managed manages (updTm_touches t _) (by decide)).trans (updSa_along (by rfl) (by rfl) (by rfl))).trans
      (Along.of_managed manages (endWork_touches _ _ _ _) (by decide))
  have continued (t : State) (w : Work) (i : Nat) (k : AccessKind) : Along given t (continueWork t e w i k) :=
    Along.of_managed manages (continueWork_touches t e w i k) (by decide)
  unfold copyAccess
  split
  · dsimp only
    split
    · exact (endRead_along _ _ _).trans (Along.of_managed manages (endWork_touches _ _ _ _) (by decide))
    all_goals
      exact Along.ite ((endRead_along _ _ _).trans (finished _ _ _)) ((endRead_along _ _ _).trans (continued _ _ _ _))
  all_goals exact .refl s

theorem tallyClose_along (closes : given.closes) (s : State) (p : Port) (f : Frame) :
    Along given s (tallyClose s p f) := by
  have closed : Along given s (closePeriod s) := .of_step (.closed (l := lineOf s) _ closes fun h =>
    ⟨rfl, fun c hc => by cases hc; exact h⟩)
  exact (reply_along _ _ _ _).ite (closed.trans (reply_along _ _ _ _))

theorem statusRead_along (s : State) (p : Port) (f : Frame) : Along given s (statusRead s p f) := by
  unfold statusRead
  split
  · exact reply_along _ _ _ _
  · exact (Along.of_quiet (updTm_touches s _) (.of_access rfl rfl rfl rfl rfl rfl) (by decide)).trans
      (reply_along _ _ _ _)

theorem expireInterval_along (s : State) : Along given s (expireInterval s) := by
  unfold expireInterval
  split
  · exact .refl s
  · exact Along.trans (t := s.updTm _) (.of_quiet (updTm_touches s _) (.of_access rfl rfl rfl rfl rfl rfl) (by decide))
      (.of_quiet (grant_touches _) (grant_quiet _) (by decide))

/-! ### Every command -/

theorem takeRequest_along {code : Nat} {k : State → Port → Frame → State}
    (hk : ∀ t p f, Along given t (k t p f)) : Along given s (takeRequest code k s) := by
  have popped : Along given s (popRx s .mgmt) := .of_frame (popRx_touches s .mgmt) (by decide)
  obtain same | ⟨-, p, f, taken⟩ := takeRequestIf_cases (soundCode code) k s
  · exact .of_eq (by rw [takeRequest, same])
  · rw [takeRequest, taken]; exact popped.trans (hk _ _ _)

theorem takeMarkIf_cases (test : Frame → Bool) (k : State → Port → Frame → State) (s : State) :
    takeMarkIf test k s = s ∨ ∃ p f, test f = true ∧ takeMarkIf test k s = k (popRx s .mark) p f := by
  unfold takeMarkIf
  split
  · exact .inl rfl
  · split
    · exact .inr ⟨_, _, And.right ‹_›, rfl⟩
    · exact .inl rfl

theorem takeMark_of_kind_along {kind : Nat} {effect : State → Frame → State}
    (h : ∀ t f, markKind f = kind → judgeMark t f = .accepted → Along given t (effect t f)) :
    Along given s (takeMarkIf (wholeMark (· == kind)) (fun s p f => takeMark s p f fun s => effect s f) s) := by
  obtain same | ⟨p, f, test, taken⟩ :=
    takeMarkIf_cases (wholeMark (· == kind)) (fun s p f => takeMark s p f fun s => effect s f) s
  · exact .of_eq (by rw [same])
  · rw [taken]
    simp only [wholeMark, Bool.and_eq_true, beq_iff_eq] at test
    exact (Along.of_frame (popRx_touches s .mark) (by decide)).trans (takeMark_along (h _ _ test.2))

theorem takeScan_along {cls : Nat} {k : State → Frame → State} (hk : ∀ t f, Along given t (k t f)) :
    Along given s (takeScan cls k s) :=
  takeScan_keeps (I := Along given s) (.of_frame (popRx_touches s .scan) (by decide)) (fun t f h => h.trans (hk t f))
    (fun _ h => h.trans (endScanTake_along _)) (.refl s)

theorem takeNotice_along {cls fixed : Nat} {k : State → List Byte → State} (hk : ∀ t l, Along given t (k t l)) :
    Along given s (takeNotice cls fixed k s) :=
  takeNotice_keeps (I := Along given s) (.of_frame (popRx_touches s .sorter) (by decide))
    (fun t l h => h.trans (hk t l))
    (fun _ _ h => h.trans (updBos_along (by rfl) (by rfl))) (.refl s)

theorem takeDeadline_along (s : State) : Along given s (takeDeadline s) := by
  unfold takeDeadline
  split
  · exact .refl s
  · exact (Along.of_frame (updHanded_touches s _) (by decide)).trans (scanDeadline_along _ _)

theorem takeScanOverflow_along (waiting : s.lu.scanQ.length ≤ given.waiting) : Along given s (takeScanOverflow s) := by
  unfold takeScanOverflow
  split
  · exact .refl s
  · exact (Along.of_frame (updHanded_touches s _) (by decide)).trans (scanOverflow_along waiting)

theorem takeOptLock_along (s : State) : Along given s (takeOptLock s) := by
  unfold takeOptLock
  split
  · exact .refl s
  · exact (Along.of_frame (updHanded_touches s _) (by decide)).trans (optimizerLocks_along _ _)

theorem takeLock_along (commits : given.commits) (s : State) : Along given s (takeLock s) := by
  unfold takeLock
  split
  · exact .refl s
  · exact (Along.of_frame (updHanded_touches s _) (by decide)).trans (lockArrives_along commits _ _)

theorem takeSort_along (s : State) : Along given s (takeSort s) := by
  unfold takeSort
  split
  · exact .refl s
  · exact (Along.of_frame (updHanded_touches s _) (by decide)).trans (sortArrives_along _ _)

theorem takeMarkOverflow_along (s : State) : Along given s (takeMarkOverflow s) := by
  unfold takeMarkOverflow
  split
  · exact .refl s
  · exact (Along.of_frame (updHanded_touches s _) (by decide)).trans (answerDropped_along _ _ _)

/-- The commands that work on Table Memory by themselves, or for the request in execution. -/
def managing : List Instr :=
  [.tableRead, .tableWrite, .tableWriteByte, .tableReadAccess, .tableWriteAccess, .byteWriteAccess, .mapWrite,
    .setSelect, .copyAccess, .scrubVisit, .softReset, .powerOn, .sweepComplete, .resetAssert, .resetRelease]

/-- What a command and a state allow their line. -/
def givenBy (c : Instr) (s : State) : Given :=
  { waiting := s.lu.scanQ.length, manages := c ∈ managing, setsQuota := c = .quotaSet ∨ c = .powerOn,
    commits := c = .lockArrival ∨ c = .commitCompletion, closes := c = .tallyClose ∨ c = .powerOn }

/-- Every command changes the line by the changes above alone. -/
theorem effect_along (c : Instr) (s : State) : Along (givenBy c s) s (effect c s) := by
  have framed (apart : ∀ b ∈ lineBlocks, b ∉ touches c) : Along (givenBy c s) s (effect c s) :=
    .of_frame (effect_touches c s) apart
  have managed (manages : c ∈ managing) (apart : ∀ b ∈ lineBlocks, b ≠ .tm → b ≠ .mg → b ∉ touches c) :
      Along (givenBy c s) s (effect c s) := .of_managed manages (effect_touches c s) apart
  cases c with
  | encoderCount => exact countEvent_along s
  | missingIndex => exact (countEvent_along s).ite (.refl s)
  | lugIndex => exact indexEvent_along s
  | scanDeadline => exact takeDeadline_along s
  | boardOpen => exact takeScan_along openBoard_along
  | profile => exact takeScan_along takeProfile_along
  | profileCont => exact takeScan_along takeProfileCont_along
  | boardClose => exact takeScan_along takeClose_along
  | scanQueueOverflow => exact takeScanOverflow_along (Nat.le_refl _)
  | offer lug => exact offerLug_along s lug
  | optimizerRead => exact endOptRead_along s
  | jobCompletion => exact completeJob_along s
  | optimizerLock => exact takeOptLock_along s
  | gradeMark => exact takeMark_of_kind_along fun _ _ _ _ =>
      applyGradeCut_along ⟨rfl, rfl, rfl, rfl, Iff.rfl, id, id⟩
  | cutMark => exact takeMark_of_kind_along fun _ _ kind accepted =>
      applyCut_along _ (judgeMark_accepted_cut kind accepted)
  | rejectMark => exact takeMark_of_kind_along fun _ _ _ _ => applyReject_along _ _
  | clearMark => exact takeMark_of_kind_along fun _ _ _ _ => applyClear_along _ _
  | badMarkKind =>
    exact takeMarkIf_keeps (I := Along (givenBy .badMarkKind s) s)
      (.of_frame (popRx_touches s .mark) (by decide)) (fun _ _ _ h => h.trans (takeMark_along fun _ => .refl _))
        (.refl s)
  | markQueueOverflow => exact takeMarkOverflow_along s
  | lockArrival => exact takeLock_along (by simp [givenBy]) s
  | commitCompletion => exact endCommitRead_along (by simp [givenBy]) s
  | sortArrival => exact takeSort_along s
  | binEmptied => exact takeNotice_along binEmptied_along
  | binService => exact takeNotice_along binService_along
  | misroutedFrame q => exact misrouted_along s q
  | copyAccess =>
    exact mgmtAccess_keeps (fun a e _ _ _ => copyAccess_along (by simp [givenBy, managing]) s a e) (.refl s)
  | scrubIntervalExpiry => exact expireInterval_along s
  | mode => exact takeRequest_along modeRequest_along
  | binWrite => exact takeRequest_along binWrite_along
  | quotaSet => exact takeRequest_along (quotaSet_along (.inl rfl))
  | tallyClose => exact takeRequest_along (tallyClose_along (.inl rfl))
  | statusRead => exact takeRequest_along statusRead_along
  | softReset => exact takeRequest_along fun t p f =>
      (softReset_along (by simp [givenBy, managing]) t).trans (reply_along _ _ _ _)
  | powerOn => exact powerOn_along (by simp [givenBy, managing]) (by simp [givenBy]) (by simp [givenBy]) s
  | sweepComplete => exact endSweep_along (by simp [givenBy, managing]) s
  | tableRead | tableWrite | tableWriteByte | tableReadAccess | tableWriteAccess | byteWriteAccess | mapWrite
    | setSelect | scrubVisit | resetAssert => exact managed (by simp [managing]) (by simp [touches, lineBlocks])
  | badRequest =>
    have counted (t : State) (f : Management → Management) (exec : (f t.mg).exec = t.mg.exec) :
        Along (givenBy .badRequest s) t (t.updMg f) := .of_eq (by unfold lineOf; simp only [State.updMg_mg, exec]; rfl)
    exact takeRequestIf_keeps (I := Along (givenBy .badRequest s) s) (.of_frame (popRx_touches s .mgmt) (by decide))
      (fun t p f _ h => (h.trans (counted t _ rfl)).trans (reply_along _ _ _ _)) (.refl s)
  | resetRelease => exact .refl s
  | _ => exact framed (by simp [touches, lineBlocks])

end

theorem releaseReset_givenBy (s : State) : Along (givenBy .resetRelease s) s (releaseReset s) :=
  releaseReset_along (by simp [givenBy, managing]) s

end Sys2Proof.Proofs
end

section
/-! SUPPORT. What the changes of the line keep: the slots aligned with the sequence (R10), the bins' loads covered
(R104), the map buffers apart (R28), the queue in order (R44, R48), and the statements settled from them. -/

namespace Sys2Proof.Proofs

open Sys2Proof Sys2Proof.Machine

/-- A predicate on lines that every change keeps is kept along. -/
theorem Along.keeps {given : Given} {s t : State} {J : Line → Prop} (along : Along given s t)
    (step : ∀ l m, LineStep given l m → J l → J m) (h : J (lineOf s)) : J (lineOf t) := by
  have along : Relation.ReflTransGen (LineStep given) (lineOf s) (lineOf t) := along
  generalize lineOf t = m at along
  induction along with
  | refl => exact h
  | tail _ last ih => exact step _ _ last ih

theorem Line.getElem_put (l : Line) (lug : LugSeq) (sl : Slot) (k : Fin 64) :
    (l.put lug sl).ring[k] = if lug.toNat % 64 = k.val then sl else l.ring[k] :=
  Vector.getElem_set (Nat.mod_lt _ (by decide)) k.isLt

theorem Line.slot_mem (l : Line) (lug : LugSeq) : l.slot lug ∈ l.ring.toList := by
  rw [Vector.mem_toList_iff]; exact Vector.getElem_mem _

/-! ### The lug ring (R10) -/

/-- R10: slot k names the one sequence of residue k whose offset is 0 to 63. -/
def aligned (l : Line) : Prop :=
  ∀ k : Fin 64, l.ring[k].seq.toNat % 64 = k.val ∧ (l.seq - l.ring[k].seq).toNat ≤ 63

theorem aligned_of_seqs {l m : Line} (seq : m.seq = l.seq) (seqs : ∀ k : Fin 64, m.ring[k].seq = l.ring[k].seq)
    (h : aligned l) : aligned m := fun k => by rw [seq, seqs]; exact h k

theorem aligned_put {l : Line} {lug : LugSeq} {sl : Slot} (seq : sl.seq = (l.slot lug).seq) (k : Fin 64) :
    (l.put lug sl).ring[k].seq = l.ring[k].seq := by
  rw [l.getElem_put]
  split
  · rename_i same
    simp only [seq, Line.slot, same]; rfl
  · rfl

theorem aligned_step {given : Given} (l m : Line) (step : LineStep given l m) (h : aligned l) : aligned m := by
  cases step with
  | slots r alike => exact aligned_of_seqs (l := l) rfl (fun k => (alike k).seq) h
  | next sl _ seq =>
    intro k
    show ((l.put _ sl).ring[k]).seq.toNat % 64 = k.val ∧ (l.seq + 1 - ((l.put _ sl).ring[k]).seq).toNat ≤ 63
    rw [l.getElem_put]
    split
    · rename_i same; rw [seq]; exact ⟨same, by simp⟩
    · rename_i other
      obtain ⟨residue, near⟩ := h k
      refine ⟨residue, ?_⟩
      rw [← residue] at other
      bv_omega
  | freed lug => exact aligned_of_seqs (l := l) rfl (aligned_put rfl) h
  | opened lug sl _ _ _ _ seq => exact aligned_of_seqs (l := l) rfl (aligned_put seq) h
  | committed lug sl _ seq => exact aligned_of_seqs (l := l) rfl (aligned_put seq) h
  | retired lug => exact aligned_of_seqs (l := l) rfl (aligned_put rfl) h
  | cleared => exact aligned_of_seqs (l := l) rfl (fun k => by
      show (emptyRing l.ring)[k].seq = _; rw [getElem_emptyRing]; rfl) h
  | reset =>
    have atReset : ∀ k : Fin 64, (resetSeq k).toNat % 64 = k.val ∧ (0 - resetSeq k).toNat ≤ 63 := by decide
    intro k
    show (State.reset.ring[k]).seq.toNat % 64 = k.val ∧ (0 - (State.reset.ring[k]).seq).toNat ≤ 63
    rw [reset_slot]; exact atReset k
  | moded | filled | lost | stored | quotaSet | joined | started | ended | withdrawn | quiet | managed | counted
    | closed => exact h

/-- Settles O11: the advance gives the slot it overwrites the sequence of its residue, and nothing else writes a
sequence but the resets. -/
theorem stepKeepsRingAligned : Obligations.StepKeepsRingAligned := fun _ _ hs =>
  step_keeps (I := RingAligned) (fun _ _ h => h) (fun c s h => (effect_along c s).keeps aligned_step h)
    (fun s h => (releaseReset_givenBy s).keeps aligned_step h) hs

/-! ### Facts of single slots -/

/-- A fact of single slots that holds of the slot after every change of it. -/
structure SlotFact (P : Slot → Prop) : Prop where
  alike : ∀ {a b : Slot}, Alike a b → P a → P b
  absent : ∀ {sl : Slot}, sl.board ≠ .present → sl.cuts = [] → P sl
  opened : ∀ {a b : Slot}, P a → b.cuts = a.cuts → b.scan ≠ .none → P b
  same : ∀ {a b : Slot}, P a → b.board = a.board → b.cuts = a.cuts → b.scan = a.scan → P b

/-- Every slot of a line satisfies a predicate. -/
def eachSlot (P : Slot → Prop) (l : Line) : Prop := ∀ k : Fin 64, P l.ring[k]

section
variable {P : Slot → Prop} {l : Line}

theorem eachSlot.slot (h : eachSlot P l) (lug : LugSeq) : P (l.slot lug) :=
  h ⟨lug.toNat % 64, Nat.mod_lt _ (by decide)⟩

theorem eachSlot.put {lug : LugSeq} {sl : Slot} (h : eachSlot P l) (new : P sl) (k : Fin 64) :
    P (l.put lug sl).ring[k] := by
  rw [l.getElem_put]
  split
  · exact new
  · exact h k

theorem SlotFact.step {given : Given} (fact : SlotFact P) {m : Line} (step : LineStep given l m)
    (h : eachSlot P l) : eachSlot P m := by
  have empty (seq : LugSeq) : P (Slot.empty seq) := fact.absent nofun rfl
  cases step with
  | slots r alike => exact fun k => fact.alike (alike k) (h k)
  | next sl _ _ _ board _ _ cuts => exact h.put (fact.absent board cuts)
  | freed lug => exact h.put (fact.same (h.slot lug) rfl rfl rfl)
  | opened lug sl _ _ _ _ _ _ _ _ _ cuts scan => exact h.put (fact.opened (h.slot lug) cuts scan)
  | committed lug sl _ _ _ _ board cuts scan => exact h.put (fact.same (h.slot lug) board cuts scan)
  | retired lug => exact h.put (empty _)
  | cleared => exact fun k => getElem_emptyRing l.ring k ▸ empty _
  | reset => exact fun k => reset_slot k ▸ empty _
  | moded | filled | lost | stored | quotaSet | joined | started | ended | withdrawn | quiet | managed | counted
    | closed => exact h

end

/-- R71: at most 4 stations in a cut list. -/
theorem slotFact_cuts : SlotFact fun sl => sl.cuts.length ≤ 4 where
  alike h := h.cuts
  absent _ cuts := cuts ▸ Nat.zero_le _
  opened h cuts _ := cuts ▸ h
  same h _ cuts _ := cuts ▸ h

/-- R26: a board has a scan state. -/
theorem slotFact_scan : SlotFact fun sl => sl.board = .present → sl.scan ≠ .none where
  alike h := h.scan
  absent board _ present := absurd present board
  opened _ _ scan _ := scan
  same h board _ scan := board ▸ scan ▸ h

theorem forall_slot_iff (r : Vector Slot 64) (P : Slot → Prop) : (∀ k : Fin 64, P r[k]) ↔ ∀ sl ∈ r.toList, P sl := by
  simp only [Vector.mem_toList_iff, Vector.mem_iff_getElem, Fin.forall_iff, Fin.getElem_fin]
  exact ⟨fun h _ ⟨i, hi, e⟩ => e ▸ h i hi, fun h i hi => h _ ⟨i, hi, rfl⟩⟩

/-! ### The queue (R44, R48) -/

theorem insertByAge_perm (off : LugSeq → Nat) (lug : LugSeq) (q : List LugSeq) :
    (insertByAge off lug q).Perm (lug :: q) := by
  obtain ⟨older, younger, split, -, -, joined⟩ := insertByAge_split off lug q
  rw [joined, split]; exact List.perm_middle

/-- R44, R48: no lug queued twice or while its job runs. -/
def queueOrdered (l : Line) : Prop := l.queue.Nodup ∧ ∀ j ∈ l.job, j.1 ∉ l.queue

theorem queueOrdered_step {given : Given} (l m : Line) (step : LineStep given l m) (h : queueOrdered l) :
    queueOrdered m := by
  obtain ⟨nodup, apart⟩ := h
  cases step with
  | joined lug off _ fresh idle _ =>
    have perm := insertByAge_perm off lug l.queue
    refine ⟨perm.nodup_iff.2 (List.nodup_cons.2 ⟨fresh, nodup⟩), fun j atWork => ?_⟩
    rw [perm.mem_iff, List.mem_cons, not_or]
    exact ⟨idle j atWork, apart j atWork⟩
  | started lug rest queue =>
    rw [queue, List.nodup_cons] at nodup
    exact ⟨nodup.2, fun j atWork => Option.some.inj atWork ▸ nodup.1⟩
  | ended => exact ⟨nodup, nofun⟩
  | withdrawn q sub => exact ⟨nodup.sublist sub, fun j atWork inQ => apart j atWork (sub.subset inQ)⟩
  | cleared => exact ⟨List.nodup_nil, nofun⟩
  | reset => exact ⟨List.nodup_nil, nofun⟩
  | slots | moded | lost | next | freed | opened | filled | stored | quotaSet | committed | retired | quiet | managed
    | counted | closed => exact ⟨nodup, apart⟩

/-- R44, R40: the optimizer's queue within its capacity, and the loss run within that of the SCAN queue. -/
def lineBounded (l : Line) : Prop := l.queue.length ≤ 16 ∧ l.lossRun ≤ 32

theorem lineBounded_step {given : Given} (waiting : given.waiting ≤ 32) (l m : Line) (step : LineStep given l m)
    (h : lineBounded l) : lineBounded m := by
  obtain ⟨queued, lossRun⟩ := h
  cases step with
  | joined lug off _ _ _ room => exact ⟨(insertByAge_perm off lug l.queue).length_eq.trans_le room, lossRun⟩
  | started lug rest queue =>
    rw [queue, List.length_cons] at queued
    exact ⟨Nat.le_of_succ_le queued, lossRun⟩
  | withdrawn q sub => exact ⟨sub.length_le.trans queued, lossRun⟩
  | cleared => exact ⟨Nat.zero_le _, lossRun⟩
  | reset => exact ⟨Nat.zero_le _, Nat.zero_le _⟩
  | lost n bound => exact ⟨queued, bound.elim (·.trans lossRun) (·.trans waiting)⟩
  | slots | moded | next | freed | opened | filled | stored | quotaSet | committed | retired | ended | quiet | managed
    | counted | closed => exact ⟨queued, lossRun⟩

theorem queuesBounded_along {c : Instr} {s t : State} (along : Along (givenBy c s) s t) (links : linkQueuesBounded t.lu)
    (h : QueuesBounded s) : QueuesBounded t := by
  obtain ⟨rx, u, d, queue, cuts, lossRun⟩ := h
  have bounds := along.keeps (lineBounded_step (rx .scan)) ⟨queue, lossRun⟩
  have lists := along.keeps (fun _ _ => slotFact_cuts.step) ((forall_slot_iff _ fun sl => sl.cuts.length ≤ 4).2 cuts)
  exact ⟨links.1, links.2.1, links.2.2, bounds.1, (forall_slot_iff t.ring fun sl => sl.cuts.length ≤ 4).1 lists,
    bounds.2⟩

/-- Settles O10: the queues by the link walk and the line, the cut lists slot by slot, and the loss run set to the
frames of a queue within its capacity. -/
theorem stepKeepsQueuesBounded : Obligations.StepKeepsQueuesBounded := fun _ _ hs =>
  step_keeps (I := QueuesBounded) (fun _ _ h => h)
    (fun c s h => queuesBounded_along (effect_along c s)
      (linkQueuesBounded_closed.effect c ⟨h.1, h.2.1, h.2.2.1⟩) h)
    (fun s h => queuesBounded_along (releaseReset_givenBy s) linkQueuesBounded_closed.fresh h) hs

/-! ### Slots that hold something -/

/-- How many slots of a line hold a bin or a buffer. -/
def holding (g : Slot → Option Nat) (l : Line) (n : Nat) : Nat := l.ring.toList.countP fun sl => g sl == .some n

theorem holding_put (g : Slot → Option Nat) (l : Line) (lug : LugSeq) (sl : Slot) (n : Nat) :
    holding g (l.put lug sl) n + (if g (l.slot lug) = .some n then 1 else 0) =
      holding g l n + if g sl = .some n then 1 else 0 := by
  have inRing : lug.toNat % 64 < 64 := Nat.mod_lt _ (by decide)
  have held : (if g (l.slot lug) = .some n then 1 else 0) ≤ holding g l n := by
    split
    · rename_i h
      exact List.one_le_countP_iff.2 ⟨_, l.slot_mem lug, by simp [h]⟩
    · exact Nat.zero_le _
  unfold holding at *
  rw [show (l.put lug sl).ring = l.ring.set _ sl inRing from rfl, Vector.countP_toList, Vector.countP_set,
    ← Vector.countP_toList, show l.ring[lug.toNat % 64] = l.slot lug from rfl]
  simp only [beq_iff_eq]
  omega

theorem holding_of_slots {g : Slot → Option Nat} {l m : Line} (same : ∀ k : Fin 64, g m.ring[k] = g l.ring[k])
    (n : Nat) : holding g m n = holding g l n := by
  unfold holding
  have read : m.ring.toList.map g = l.ring.toList.map g :=
    List.ext_getElem (by simp) fun i hi _ => by simpa using same ⟨i, by simpa using hi⟩
  have counted (r : List Slot) : (r.countP fun sl => g sl == .some n) = (r.map g).countP (· == .some n) :=
    by rw [List.countP_map]; rfl
  rw [counted, counted, read]

theorem holding_empty {g : Slot → Option Nat} {l : Line} (empty : ∀ k : Fin 64, g l.ring[k] = .none) (n : Nat) :
    holding g l n = 0 :=
  List.countP_eq_zero.2 fun sl h => by
    rw [(forall_slot_iff l.ring fun sl => g sl = .none).1 empty sl h]; simp

/-! ### Bins (R104) -/

/-- R104: what the bins have reserved covers the slots, and the loads lie within the capacities. -/
def loadsCovered (l : Line) : Prop :=
  ∀ n ≤ 47, holding reservedBin l n ≤ (binAt l.bos n).reserved ∧ (n ≠ 0 → binWithin (binAt l.bos n))

theorem loadsCovered_put {l : Line} {lug : LugSeq} {sl : Slot}
    (same : reservedBin sl = reservedBin (l.slot lug)) (n : Nat) :
    holding reservedBin (l.put lug sl) n = holding reservedBin l n := by
  have := holding_put reservedBin l lug sl n
  rw [same] at this; omega

theorem binAt_releaseAll {ring : List Slot} {b : BinStore} {n : Nat} (inRange : n ≤ 47) :
    binAt (releaseAll ring b) n = { binAt b n with
      reserved := (binAt b n).reserved - ring.countP fun sl => reservedBin sl == .some n } := by
  have read (c : BinStore) : binAt c n = c.bins[(⟨n, by omega⟩ : Fin 48)] := by
    have : n < 48 := by omega
    simp [binAt, this]
  rw [read, read]
  exact getElem_releaseAll _ _ _

theorem loadsCovered_step {given : Given} (l m : Line) (step : LineStep given l m) (h : loadsCovered l) :
    loadsCovered m := by
  intro n inRange
  obtain ⟨covered, within⟩ := h n inRange
  cases step with
  | slots r alike =>
    refine ⟨(holding_of_slots (l := l) (fun k => ?_) n).trans_le covered, within⟩
    exact congrArg (·.bind (·.bin)) (alike k).committed
  | next sl _ _ _ _ _ none =>
    have put := holding_put reservedBin l (l.seq + 1) sl n
    rw [show reservedBin sl = .none by simp [reservedBin, none]] at put
    refine ⟨?_, within⟩
    show holding reservedBin (l.put (l.seq + 1) sl) n ≤ (binAt l.bos n).reserved
    simp only [reduceCtorEq, if_false] at put
    omega
  | freed lug => exact ⟨(loadsCovered_put (l := l) (lug := lug)
      (sl := { l.slot lug with buffer := .none }) rfl n).trans_le covered, within⟩
  | opened lug sl _ _ _ _ _ _ _ committed =>
    exact ⟨(loadsCovered_put (l := l) (congrArg (·.bind (·.bin)) committed) n).trans_le covered, within⟩
  | stored b _ reserved kept =>
    exact ⟨covered.trans_eq (reserved n inRange).symm, fun other => kept n inRange other (within other)⟩
  | committed lug sl b _ _ _ _ _ _ _ reserved kept =>
    have put := holding_put reservedBin l lug sl n
    have more := reserved n inRange
    refine ⟨?_, fun other => kept n inRange other (within other)⟩
    show holding reservedBin (l.put lug sl) n ≤ (binAt b n).reserved
    omega
  | retired lug b _ _ reserved kept =>
    have put := holding_put reservedBin l lug (Slot.empty (l.slot lug).seq) n
    have less := reserved n inRange
    have nothing : reservedBin (Slot.empty (l.slot lug).seq) = .none := rfl
    rw [nothing] at put
    simp only [reduceCtorEq, if_false] at put
    refine ⟨?_, fun other => kept n inRange other (fun held => ?_) (within other)⟩
    · show holding reservedBin (l.put lug _) n ≤ (binAt b n).reserved
      omega
    · rw [if_pos held] at put; omega
  | cleared =>
    refine ⟨(holding_empty (fun k => ?_) n).trans_le (Nat.zero_le _), fun other => ?_⟩
    · show reservedBin (emptyRing l.ring)[k] = .none
      rw [getElem_emptyRing]; rfl
    · show binWithin (binAt (releaseAll l.ring.toList l.bos) n)
      rw [binAt_releaseAll inRange]
      exact ⟨(Nat.add_le_add_left (Nat.sub_le _ _) _).trans (within other).1, (within other).2⟩
  | reset b _ reserved kept =>
    refine ⟨(holding_empty (fun k => ?_) n).trans_le (Nat.zero_le _), fun other => kept n inRange other (within other)⟩
    show reservedBin State.reset.ring[k] = .none
    rw [reset_slot]; rfl
  | moded | filled | lost | quotaSet | joined | started | ended | withdrawn | quiet | managed | counted | closed =>
    exact ⟨covered, within⟩

/-- Settles O12: only an open bin, or bin 0, is reserved, with the commitment that holds the reservation; a delivery
takes the place of one, and a capacity is clamped at the load. -/
theorem stepKeepsBinLoadsWithinCapacity : Obligations.StepKeepsBinLoadsWithinCapacity := fun _ _ hs =>
  step_keeps (I := BinsSound) (fun _ _ h => h) (fun c s h => (effect_along c s).keeps loadsCovered_step h)
    (fun s h => (releaseReset_givenBy s).keeps loadsCovered_step h) hs

/-! ### Map buffers (R28) -/

/-- R28: each map buffer 0 to 23 once on the free list or held by one slot, and only by a board's. -/
def buffersApart (l : Line) : Prop :=
  (∀ n, l.free.count n + holding (·.buffer) l n = (List.range 24).count n)
    ∧ ∀ k : Fin 64, l.ring[k].board ≠ .present → l.ring[k].buffer = .none

theorem buffersApart_iff (s : State) : BuffersApart s ↔ buffersApart (lineOf s) := by
  unfold BuffersApart buffersApart
  rw [List.perm_iff_count, ← forall_slot_iff s.ring fun sl => sl.board ≠ .present → sl.buffer = .none]
  simp only [List.count_append, List.count_filterMap]
  rfl

/-- R28: the buffers held, each by one slot, appear once among those a clearing frees. -/
theorem count_heldBuffers {r : List Slot} {n : Nat}
    (once : (r.countP fun sl => sl.buffer == .some n) ≤ (List.range 24).count n) :
    (heldBuffers r).count n = r.countP fun sl => sl.buffer == .some n := by
  have single : (List.range 24).count n ≤ 1 := List.nodup_iff_count_le_one.1 List.nodup_range n
  unfold heldBuffers
  by_cases held : (r.any fun sl => sl.buffer == .some n) = true
  · rw [List.count_filter (p := fun b => r.any fun sl => sl.buffer == .some b) held]
    have := List.one_le_countP_iff.2 (List.any_eq_true.1 held)
    omega
  · have none : (r.countP fun sl => sl.buffer == .some n) = 0 := by
      simpa [List.countP_eq_zero] using held
    rw [none, List.count_eq_zero, List.mem_filter]
    exact fun h => held h.2

theorem count_option_toList (o : Option Nat) (n : Nat) : o.toList.count n = if o = .some n then 1 else 0 := by
  cases o with
  | none => rfl
  | some b => simp [List.count_singleton]

theorem buffersApart_step {given : Given} (l m : Line) (step : LineStep given l m) (h : buffersApart l) :
    buffersApart m := by
  obtain ⟨once, absent⟩ := h
  have absent_put {lug : LugSeq} {sl : Slot} (new : sl.board ≠ .present → sl.buffer = .none) (k : Fin 64) :
      (l.put lug sl).ring[k].board ≠ .present → (l.put lug sl).ring[k].buffer = .none :=
    eachSlot.put (P := fun sl => sl.board ≠ .present → sl.buffer = .none) absent new k
  cases step with
  | slots r alike =>
    refine ⟨fun n => ?_, fun k missing => ?_⟩
    · have same := holding_of_slots (g := (·.buffer)) (l := l) (m := { l with ring := r })
        (fun k => (alike k).buffer) n
      rw [same]; exact once n
    · exact (alike k).buffer.trans (absent k fun present => missing ((alike k).board.2 present))
  | next sl freed _ _ _ none =>
    refine ⟨fun n => ?_, absent_put fun _ => none⟩
    have put := holding_put (·.buffer) l (l.seq + 1) sl n
    have old := once n
    simp only [freed, none, reduceCtorEq, if_false] at put
    show l.free.count n + holding _ (l.put _ sl) n = _
    omega
  | freed lug =>
    refine ⟨fun n => ?_, absent_put fun _ => rfl⟩
    have put := holding_put (·.buffer) l lug { l.slot lug with buffer := .none } n
    have old := once n
    simp only [reduceCtorEq, if_false] at put
    show (l.free ++ (l.slot lug).buffer.toList).count n
      + holding (·.buffer) (l.put lug { l.slot lug with buffer := .none }) n = _
    rw [List.count_append, count_option_toList]
    dsimp only
    omega
  | opened lug sl b rest free missing _ _ buffer _ board =>
    refine ⟨fun n => ?_, absent_put fun other => absurd board other⟩
    have put := holding_put (·.buffer) l lug sl n
    have old := once n
    have none : (l.slot lug).buffer = .none := eachSlot.slot
      (P := fun sl => sl.board ≠ .present → sl.buffer = .none) absent lug missing
    simp only [none, buffer, reduceCtorEq, if_false, Option.some.injEq] at put
    rw [free, List.count_cons] at old
    simp only [beq_iff_eq] at old
    show rest.count n + holding _ (l.put lug sl) n = _
    omega
  | committed lug sl b _ _ buffer board =>
    refine ⟨fun n => ?_, absent_put fun missing => ?_⟩
    · have put := holding_put (·.buffer) l lug sl n
      have old := once n
      rw [buffer] at put
      show l.free.count n + holding _ (l.put lug sl) n = _
      omega
    · rw [buffer]; exact eachSlot.slot (P := fun sl => sl.board ≠ .present → sl.buffer = .none) absent lug
        (board ▸ missing)
  | retired lug b freed =>
    refine ⟨fun n => ?_, absent_put fun _ => rfl⟩
    have put := holding_put (·.buffer) l lug (Slot.empty (l.slot lug).seq) n
    have old := once n
    simp only [freed, Slot.empty, reduceCtorEq, if_false] at put
    show l.free.count n + holding _ (l.put lug (Slot.empty _)) n = _
    simp only [Slot.empty]
    omega
  | cleared =>
    refine ⟨fun n => ?_, fun k _ => ?_⟩
    · show (l.free ++ heldBuffers l.ring.toList).count n + holding _ { l with ring := emptyRing l.ring } n = _
      have gone : holding (·.buffer) { l with ring := emptyRing l.ring } n = 0 := holding_empty (fun k => by
        show (emptyRing l.ring)[k].buffer = .none
        rw [getElem_emptyRing]; rfl) n
      have old := once n
      rw [gone, List.count_append, ← old, Nat.add_zero, Nat.add_left_cancel_iff]
      exact count_heldBuffers ((Nat.le_add_left _ _).trans_eq old)
    · show (emptyRing l.ring)[k].buffer = .none
      rw [getElem_emptyRing]; rfl
  | reset =>
    have empty (k : Fin 64) : (State.reset.ring[k]).buffer = .none := by rw [reset_slot]; rfl
    exact ⟨fun n => by rw [holding_empty empty n]; rfl, fun k _ => empty k⟩
  | moded | filled | lost | stored | quotaSet | joined | started | ended | withdrawn | quiet | managed | counted
    | closed => exact ⟨once, absent⟩

/-- Settles O13: a buffer moves between the free list and a slot in one change of the line, and the clearing frees
each held one once. -/
theorem stepKeepsMapBuffersApart : Obligations.StepKeepsMapBuffersApart := fun _ _ hs =>
  step_keeps (I := BuffersApart) (fun _ _ h => h)
    (fun c s h => (buffersApart_iff _).2 ((effect_along c s).keeps buffersApart_step ((buffersApart_iff s).1 h)))
    (fun s h => (buffersApart_iff _).2 ((releaseReset_givenBy s).keeps buffersApart_step
      ((buffersApart_iff s).1 h))) hs

end Sys2Proof.Proofs
end

section
/-! SUPPORT. The queue behind the running job: every command that ends a job or lets a lug join starts the next job
(R48), and the invariant of the handlers settled from it and the line. -/

namespace Sys2Proof.Proofs

open Sys2Proof Sys2Proof.Machine

/-- R48: no lug is queued while no job runs. -/
def queueBehindJob (s : State) : Prop := s.opt.job = .none → s.opt.queue = []

section
variable {s t : State}

theorem queueBehindJob_of_opt (opt : t.opt = s.opt) (h : queueBehindJob s) : queueBehindJob t := by
  unfold queueBehindJob; rw [opt]; exact h

theorem queueBehindJob_of_running {job : Job} (h : s.opt.job = .some job) : queueBehindJob s := fun none => by
  rw [h] at none; cases none

/-- Asking for a word leaves the queue, and a job where there is one. -/
theorem askJobWord_job (s : State) :
    (askJobWord s).opt.queue = s.opt.queue ∧ (askJobWord s).opt.job.isSome = s.opt.job.isSome := by
  unfold askJobWord
  split
  · exact ⟨rfl, rfl⟩
  · rename_i job atWork
    have asked (j : Job) (i : Nat) :
        (requestOpt (s.updOpt fun o => { o with job := .some j }) i).opt = { s.opt with job := .some j } :=
      requestOpt_touches _ i .opt (by decide)
    split
    · exact ⟨rfl, rfl⟩
    · split
      · exact ⟨rfl, rfl⟩
      · split
        · rw [asked, atWork]; exact ⟨rfl, rfl⟩
        · rw [atWork]; exact ⟨rfl, rfl⟩

theorem askJobWord_queueBehindJob (h : queueBehindJob s) : queueBehindJob (askJobWord s) := fun idle => by
  obtain ⟨queue, job⟩ := askJobWord_job s
  rw [idle] at job
  rw [queue]
  exact h (Option.isSome_eq_false_iff.1 job.symm |> Option.isNone_iff_eq_none.1)

/-- R48: once the next job has had its chance to start, no lug waits without one. -/
theorem startJob_queueBehindJob (s : State) : queueBehindJob (startJob s) := by
  cases atWork : s.opt.job with
  | some job =>
    rw [startJob_idle (.inl (by simp [atWork]))]
    exact queueBehindJob_of_running atWork
  | none =>
    cases waiting : s.opt.queue with
    | nil => rw [startJob_idle (.inr waiting)]; exact fun _ => waiting
    | cons lug rest =>
      have started : (startJob s).opt.job.isSome = true := by
        unfold startJob
        simp only [atWork, waiting]
        exact (askJobWord_job _).2
      obtain ⟨job, running⟩ := Option.isSome_iff_exists.1 started
      exact queueBehindJob_of_running running

theorem endPartial_queueBehindJob (lug : LugSeq) (h : queueBehindJob s) : queueBehindJob (endPartial s lug) := by
  unfold endPartial
  dsimp only
  split
  · split
    · exact startJob_queueBehindJob _
    · exact h
  · exact h

theorem completeIfClosed_queueBehindJob (lug : LugSeq) (h : queueBehindJob s) :
    queueBehindJob (completeIfClosed s lug) := by
  unfold completeIfClosed completeScan
  split
  · split
    · exact endPartial_queueBehindJob lug h
    · dsimp only
      split
      · exact startJob_queueBehindJob _
      · exact h
  · exact h

theorem openBoard_queueBehindJob (f : Frame) (h : queueBehindJob s) : queueBehindJob (openBoard s f) := by
  unfold openBoard
  dsimp only
  repeat' split
  case h_2 => exact completeIfClosed_queueBehindJob _ h
  all_goals exact h

theorem takeClose_queueBehindJob (f : Frame) (h : queueBehindJob s) : queueBehindJob (takeClose s f) := by
  unfold takeClose admitScan closeHead
  dsimp only
  repeat' split
  case isFalse.isFalse.isFalse.isFalse.isTrue.isFalse => exact completeIfClosed_queueBehindJob _ h
  all_goals exact h

theorem applyUnrejected_queueBehindJob (lug : LugSeq) (h : queueBehindJob s) :
    queueBehindJob (applyUnrejected s lug) := by
  unfold applyUnrejected
  dsimp only
  split
  · exact startJob_queueBehindJob _
  · exact h

theorem applyGradeCut_queueBehindJob (lug : LugSeq) (f : Slot → Slot) (h : queueBehindJob s) :
    queueBehindJob (applyGradeCut s lug f) := by
  unfold applyGradeCut
  dsimp only
  split
  · exact h
  · exact applyUnrejected_queueBehindJob lug h

theorem applyReject_queueBehindJob (lug : LugSeq) (h : queueBehindJob s) :
    queueBehindJob (applyReject s lug) := fun idle => by
  show s.opt.queue.filter _ = []
  rw [h idle, List.filter_nil]

theorem applyClear_queueBehindJob (lug : LugSeq) (h : queueBehindJob s) : queueBehindJob (applyClear s lug) := by
  unfold applyClear clearReject
  dsimp only
  repeat' split
  case isFalse => exact applyUnrejected_queueBehindJob lug h
  case isTrue.isFalse.isFalse.isFalse => exact startJob_queueBehindJob _
  all_goals exact h

theorem takeMarkIf_queueBehindJob {test : Frame → Bool} {effect : State → Frame → State}
    (he : ∀ t f, queueBehindJob t → queueBehindJob (effect t f)) (h : queueBehindJob s) :
    queueBehindJob (takeMarkIf test (fun s p f => takeMark s p f fun s => effect s f) s) := by
  refine takeMarkIf_keeps h (fun t p f ht => ?_) h
  refine queueBehindJob_of_opt (replyMark_touches _ p f _ .opt (by decide)) ?_
  split
  · exact he t f ht
  · exact ht

theorem changeMode_queueBehindJob (m : LineMode) (h : queueBehindJob s) : queueBehindJob (changeMode s m).2 := by
  have cleared : (clearRing s).opt.queue = [] := congrArg Line.queue (lineOf_clearRing s)
  unfold changeMode
  split
  case h_4 | h_5 => exact fun _ => cleared
  case h_8 | h_9 => split <;> exact h
  all_goals exact h

/-- R48: each command that ends the job or adds to the queue ends with the chance of a start. -/
theorem effect_queueBehindJob (c : Instr) (h : queueBehindJob s) : queueBehindJob (effect c s) := by
  have reply_kept {t : State} (p : Port) (f : Frame) (r : Result) (data : List Byte) (h : queueBehindJob t) :
      queueBehindJob (reply t p f r data) := queueBehindJob_of_opt (reply_touches t p f r data .opt (by decide)) h
  cases c with
  | scanDeadline =>
    show queueBehindJob (takeDeadline s)
    unfold takeDeadline scanDeadline
    dsimp only
    repeat' split
    case isTrue => exact endPartial_queueBehindJob _ h
    all_goals exact h
  | boardOpen => exact takeScan_keeps h (fun _ f ht => openBoard_queueBehindJob f ht) (fun _ ht => ht) h
  | boardClose => exact takeScan_keeps h (fun _ f ht => takeClose_queueBehindJob f ht) (fun _ ht => ht) h
  | offer lug => exact startJob_queueBehindJob _
  | jobCompletion =>
    show queueBehindJob (completeJob s)
    unfold completeJob
    repeat' split
    case isTrue => exact startJob_queueBehindJob _
    all_goals exact h
  | optimizerRead =>
    show queueBehindJob (endOptRead s)
    unfold endOptRead
    split
    · rename_i a _
      have read : queueBehindJob (endAccess (noteRead s .optimizer a.index)) :=
        queueBehindJob_of_opt (endRead_touches s .optimizer a.index .opt (by decide)) h
      split
      · split
        · exact askJobWord_queueBehindJob fun idle => read (Option.map_eq_none_iff.1 idle)
        · exact read
      · exact h
    · exact h
  | optimizerLock =>
    show queueBehindJob (takeOptLock s)
    unfold takeOptLock optimizerLocks
    repeat' split
    case h_1 => exact h
    all_goals exact startJob_queueBehindJob _
  | gradeMark => exact takeMarkIf_queueBehindJob (fun _ _ ht => applyGradeCut_queueBehindJob _ _ ht) h
  | cutMark => exact takeMarkIf_queueBehindJob (fun _ _ ht => applyGradeCut_queueBehindJob _ _ ht) h
  | rejectMark => exact takeMarkIf_queueBehindJob (fun _ _ ht => applyReject_queueBehindJob _ ht) h
  | clearMark => exact takeMarkIf_queueBehindJob (fun _ _ ht => applyClear_queueBehindJob _ ht) h
  | mode =>
    refine takeRequestIf_keeps h (fun t p f _ ht => ?_) h
    unfold modeRequest
    split
    · exact reply_kept _ _ _ _ ht
    · exact reply_kept _ _ _ _ (changeMode_queueBehindJob _ ht)
  | softReset => exact takeRequestIf_keeps h (fun t p f _ _ => reply_kept _ _ _ _ fun _ => rfl) h
  | powerOn => exact fun _ => rfl
  | resetRelease => exact h
  | _ => exact queueBehindJob_of_opt (effect_touches _ s .opt (by simp [touches])) h

/-! ### STARTING (R13) -/

/-- R13: STARTING stands in STOP. -/
def startingStopped (s : State) : Prop := s.ct.starting = true → s.ct.mode = .stop

theorem changeMode_starting (m : LineMode) : (changeMode s m).2.ct.starting = s.ct.starting := by
  have cleared : (clearRing s).ct.starting = s.ct.starting :=
    congrArg Chain.starting (clearRing_touches s .ct (by decide))
  unfold changeMode
  split
  case h_4 | h_5 => exact cleared
  case h_8 | h_9 => split <;> rfl
  all_goals rfl

theorem effect_startingStopped (c : Instr) (h : startingStopped s) : startingStopped (effect c s) := by
  by_cases other : c ∉ [Instr.mode, .softReset, .sweepComplete, .powerOn]
  · obtain ⟨mode, starting⟩ := effect_modeKept other s
    unfold startingStopped
    rw [mode, starting]; exact h
  · simp only [List.mem_cons, List.not_mem_nil, or_false, not_not] at other
    obtain rfl | rfl | rfl | rfl := other
    · refine takeRequestIf_keeps h (fun t p f ready _ starting => ?_) h
      have started : t.ct.starting = false := by
        simp only [mgmtReady, Bool.and_eq_true, Bool.not_eq_true'] at ready; exact ready.2
      have still : (modeRequest t p f).ct.starting = t.ct.starting := by
        unfold modeRequest
        split
        · rw [reply_ct]
        · rw [reply_ct, changeMode_starting]
      rw [still, started] at starting; cases starting
    · refine takeRequestIf_keeps h (fun t p f _ _ => ?_) h
      unfold startingStopped softResetRequest
      rw [reply_ct]; exact fun _ => rfl
    · show startingStopped (endSweep s)
      unfold endSweep
      split
      · exact fun _ => rfl
      · exact h
    · exact fun _ => rfl

end

/-- The invariant of the handlers, cut where its parts are kept by different means. -/
theorem handlersOrdered_iff (s : State) : HandlersOrdered s ↔ startingStopped s ∧ queueBehindJob s
    ∧ queueOrdered (lineOf s) ∧ eachSlot (fun sl => sl.board = .present → sl.scan ≠ .none) (lineOf s) := by
  have jobs : (∀ j ∈ s.opt.job, j.lug ∉ s.opt.queue) ↔ ∀ j ∈ (lineOf s).job, j.1 ∉ s.opt.queue := by
    simp [lineOf]
  unfold HandlersOrdered
  rw [jobs, ← forall_slot_iff s.ring fun sl => sl.board = .present → sl.scan ≠ .none]
  exact ⟨fun ⟨starting, behind, nodup, apart, scan⟩ => ⟨starting, behind, ⟨nodup, apart⟩, scan⟩,
    fun ⟨starting, behind, ⟨nodup, apart⟩, scan⟩ => ⟨starting, behind, nodup, apart, scan⟩⟩

/-- Settles O16: the mode by the rules of its changes, the start of the next job command by command, and the rest
along the line. -/
theorem stepKeepsHandlersOrdered : Obligations.StepKeepsHandlersOrdered := fun _ _ hs =>
  step_keeps (I := HandlersOrdered) (fun _ _ h => h)
    (fun c s h => by
      obtain ⟨starting, behind, ordered, scan⟩ := (handlersOrdered_iff s).1 h
      exact (handlersOrdered_iff _).2 ⟨effect_startingStopped c starting, effect_queueBehindJob c behind,
        (effect_along c s).keeps queueOrdered_step ordered,
        (effect_along c s).keeps (fun _ _ => slotFact_scan.step) scan⟩)
    (fun s h => by
      obtain ⟨-, -, ordered, scan⟩ := (handlersOrdered_iff s).1 h
      have along : Along (givenBy .resetRelease s) s (releaseReset s) :=
        releaseReset_along (by simp [givenBy, managing]) s
      exact (handlersOrdered_iff _).2 ⟨fun _ => rfl, fun _ => rfl, along.keeps queueOrdered_step ordered,
        along.keeps (fun _ _ => slotFact_scan.step) scan⟩) hs

end Sys2Proof.Proofs
end

section
/-! SUPPORT. What the changes of the line keep of the stores: the quotas (R114), the canonical form of quotas, tally
and map buffers, and, access by access, the table words (R134). -/

namespace Sys2Proof.Proofs

open Sys2Proof Sys2Proof.Machine

/-- Every command, event of the part or not, changes the line by the changes above. -/
theorem exec_along {c : Instr} {s t : State} (h : exec c s = .next t) : Along (givenBy c s) s t := by
  obtain rfl | rfl | ⟨rfl, rfl⟩ := exec_cases h
  · exact .refl _
  · exact effect_along c s
  · exact releaseReset_givenBy s

/-! ### Quotas (R114) -/

/-- R114: a quota store in which nothing was made present, absent or larger. -/
def quotaLowered (b c : BinStore) : Prop := ∀ p : Nat,
  (quotaAt b p = .none → quotaAt c p = .none) ∧ ∀ n, quotaAt b p = .some n → ∃ m, quotaAt c p = .some m ∧ m ≤ n

theorem quotaLowered.trans {b c d : BinStore} (h₁ : quotaLowered b c) (h₂ : quotaLowered c d) : quotaLowered b d :=
  fun p => ⟨fun none => (h₂ p).1 ((h₁ p).1 none), fun n some => by
    obtain ⟨m, hm, le⟩ := (h₁ p).2 n some
    obtain ⟨k, hk, le'⟩ := (h₂ p).2 m hm
    exact ⟨k, hk, le'.trans le⟩⟩

theorem quotaLowered_of_quota {b c : BinStore} (same : c.quota = b.quota) : quotaLowered b c := fun p => by
  have read : quotaAt c p = quotaAt b p := by unfold quotaAt; rw [same]
  rw [read]; exact ⟨id, fun n h => ⟨n, h, Nat.le_refl n⟩⟩

/-- R114: a quota take lowers one entry by 1. -/
theorem quotaLowered_take {b : BinStore} (canonical : sparseWf .none b.quota = true) (p : Nat) :
    quotaLowered b (takeQuota b p).2 := by
  unfold takeQuota
  split
  · exact quotaLowered_of_quota rfl
  · exact quotaLowered_of_quota rfl
  · rename_i n entry
    intro q
    have read : quotaAt (setQuota b p (.some n)) q = if q = p then .some n else quotaAt b q :=
      sparseGet_set (none : Option Nat) canonical p q (.some n)
    rw [read]
    split
    · subst q; rw [entry]; exact ⟨nofun, fun m h => ⟨n, rfl, by cases h; omega⟩⟩
    · exact ⟨id, fun m h => ⟨m, h, Nat.le_refl m⟩⟩

theorem takeQuota_canonical {b : BinStore} (h : sparseWf .none b.quota = true) (p : Nat) :
    sparseWf .none (takeQuota b p).2.quota = true := by
  unfold takeQuota
  split
  · exact h
  · exact h
  · exact sparseSet_wf (none : Option Nat) _ _ h

theorem releaseAll_quota (l : List Slot) (b : BinStore) : (releaseAll l b).quota = b.quota :=
  (releaseAll_quota_counts l b).1

/-- R114: where no quota is set, the changes of the line lower quotas at most, and only at commitments. -/
theorem quotaLowered_step {given : Given} (notSet : ¬ given.setsQuota) {b : BinStore} (l m : Line)
    (step : LineStep given l m)
    (h : sparseWf .none l.bos.quota = true ∧ quotaLowered b l.bos ∧ (¬ given.commits → l.bos.quota = b.quota)) :
    sparseWf .none m.bos.quota = true ∧ quotaLowered b m.bos ∧ (¬ given.commits → m.bos.quota = b.quota) := by
  obtain ⟨canonical, lowered, kept⟩ := h
  have same (quota : m.bos.quota = l.bos.quota) : sparseWf .none m.bos.quota = true ∧ quotaLowered b m.bos
      ∧ (¬ given.commits → m.bos.quota = b.quota) := by
    refine ⟨quota ▸ canonical, lowered.trans (quotaLowered_of_quota quota), ?_⟩
    rw [quota]; exact kept
  cases step with
  | stored c quota => exact same quota
  | retired lug c _ quota => exact same quota
  | cleared => exact same (releaseAll_quota _ _)
  | reset c quota => exact same (quota.resolve_right fun set => notSet set.1)
  | committed lug sl c _ _ _ _ _ _ quota =>
    obtain quota | ⟨commits, p, quota⟩ := quota
    · exact same quota
    · refine ⟨?_, ?_, fun not => absurd commits not⟩
      · show sparseWf .none c.quota = true
        rw [quota]; exact takeQuota_canonical canonical p
      · exact (lowered.trans (quotaLowered_take canonical p)).trans (quotaLowered_of_quota quota)
  | quotaSet _ _ permitted => exact absurd permitted notSet
  | slots | moded | next | freed | opened | filled | lost | joined | started | ended | withdrawn | quiet | managed
    | counted | closed => exact same rfl

/-- Settles O6: of the changes of the line only a commitment's quota take touches an entry. -/
theorem quotaIsNeverReturned : Obligations.QuotaIsNeverReturned := by
  intro c s t canonical h notSet notOn p
  obtain ⟨-, lowered, kept⟩ := (exec_along h).keeps
    (quotaLowered_step (b := s.bos) (by simp [givenBy, notSet, notOn]))
    ⟨canonical, quotaLowered_of_quota rfl, fun _ => rfl⟩
  refine ⟨(lowered p).1, (lowered p).2, fun notLock notCompletion => ?_⟩
  have same : t.bos.quota = s.bos.quota := kept (by simp [givenBy, notLock, notCompletion])
  unfold quotaAt
  rw [same]

/-! ### Canonical stores -/

theorem add_canonical {t : TallyPeriod} (x : TallyField) (n : Nat) (h : sparseWf 0 t.counts = true) :
    sparseWf 0 (t.add x n).counts = true := sparseSet_wf 0 _ _ h

/-- The canonical form of quotas, tally and map buffers. -/
def lineCanonical (l : Line) : Prop :=
  sparseWf .none l.bos.quota = true ∧ sparseWf 0 l.tally.current.counts = true
    ∧ (∀ c ∈ l.tally.closed, sparseWf 0 c.period.counts = true) ∧ ∀ k : Fin 24, sparseWf 0 l.buffers[k] = true

theorem canonical_setBuffer {r : Vector (Sparse (BitVec 4)) 24} {b : Nat} {cells : Sparse (BitVec 4)}
    (h : ∀ k : Fin 24, sparseWf 0 r[k] = true) (new : b < 24 → sparseWf 0 cells = true) (k : Fin 24) :
    sparseWf 0 (r.setIfInBounds b cells)[k] = true := by
  show sparseWf 0 ((r.setIfInBounds b cells)[k.val]) = true
  rw [Vector.getElem_setIfInBounds]
  split
  · rename_i same; exact new (same ▸ k.isLt)
  · exact h k

theorem lineCanonical_step {given : Given} (l m : Line) (step : LineStep given l m) (h : lineCanonical l) :
    lineCanonical m := by
  obtain ⟨quota, current, closed, buffers⟩ := h
  cases step with
  | opened lug sl b => exact ⟨quota, current, closed, canonical_setBuffer buffers fun _ => rfl⟩
  | filled b cells canonical =>
    refine ⟨quota, current, closed, canonical_setBuffer buffers fun inRange => canonical ?_⟩
    simpa [inRange] using buffers ⟨b, inRange⟩
  | stored c same => exact ⟨by show sparseWf .none c.quota = true; rwa [same], current, closed, buffers⟩
  | quotaSet p q => exact ⟨sparseSet_wf (none : Option Nat) _ _ quota, current, closed, buffers⟩
  | committed lug sl c _ _ _ _ _ _ taken =>
    refine ⟨?_, current, closed, buffers⟩
    show sparseWf .none c.quota = true
    obtain same | ⟨-, p, taken⟩ := taken
    · rwa [same]
    · rw [taken]; exact takeQuota_canonical quota p
  | retired lug c _ same => exact ⟨by show sparseWf .none c.quota = true; rwa [same], current, closed, buffers⟩
  | cleared => exact ⟨(releaseAll_quota _ _).symm ▸ quota, current, closed, buffers⟩
  | reset c same =>
    refine ⟨?_, current, closed, buffers⟩
    show sparseWf .none c.quota = true
    obtain same | ⟨-, none⟩ := same
    · rwa [same]
    · rw [none]; rfl
  | counted x n => exact ⟨quota, add_canonical x n current, closed, buffers⟩
  | closed t _ canonical => exact ⟨quota, (canonical current).1, (canonical current).2, buffers⟩
  | slots | moded | next | freed | lost | joined | started | ended | withdrawn | quiet | managed =>
    exact ⟨quota, current, closed, buffers⟩

/-! ### Table words (R134) -/

section
variable {s : State}

theorem requestMgmt_words (s : State) (i : Nat) (k : AccessKind) : (requestMgmt s i k).tm.words = s.tm.words :=
  (grant_quiet (s.updTm fun t => { t with waitMgmt := .some (i, k) })).words

theorem beginWork_words (s : State) (p : Port) (f : Frame) (w : Work) (i : Nat) (k : AccessKind) :
    (beginWork s p f w i k).tm.words = s.tm.words := requestMgmt_words _ i k

theorem continueWork_words (s : State) (e : InExec) (w : Work) (i : Nat) (k : AccessKind) :
    (continueWork s e w i k).tm.words = s.tm.words := requestMgmt_words _ i k

theorem endWork_tm (s : State) (e : InExec) (r : Result) (data : List Byte) : (endWork s e r data).tm = s.tm :=
  reply_tm _ _ _ _ _

theorem endAccess_words (s : State) : (endAccess s).tm.words = s.tm.words :=
  (grant_quiet (s.updTm fun t => { t with access := .none })).words

theorem endRead_words (s : State) (who : Requester) (i : Nat) : (endAccess (noteRead s who i)).tm.words = s.tm.words :=
  (endAccess_words _).trans (noteRead_quiet s who i).words

theorem tableRead_words (s : State) (p : Port) (f : Frame) : (tableRead s p f).tm.words = s.tm.words := by
  unfold tableRead
  split
  · rw [reply_tm]
  · split
    · rw [reply_tm]
    · exact beginWork_words _ _ _ _ _ _

theorem tableWrite_words (s : State) (p : Port) (f : Frame) : (tableWrite s p f).tm.words = s.tm.words := by
  unfold tableWrite
  split
  · rw [reply_tm]
  · split
    · rw [reply_tm]
    · exact beginWork_words _ _ _ _ _ _

theorem tableWriteByte_words (s : State) (p : Port) (f : Frame) : (tableWriteByte s p f).tm.words = s.tm.words := by
  unfold tableWriteByte
  split
  · split
    · rw [reply_tm]
    · exact beginWork_words _ _ _ _ _ _
  · rw [reply_tm]

theorem setSelect_words (s : State) (p : Port) (f : Frame) : (setSelect s p f).tm.words = s.tm.words := by
  unfold setSelect
  split
  · rw [reply_tm]
  · split
    · exact beginWork_words _ _ _ _ _ _
    · rw [reply_tm]

theorem setMapEntry_kept (t : TableMemory) (sid : SetId) (k : Nat) (e : Option MapEntry) :
    (setMapEntry t sid k e).words = t.words ∧ (setMapEntry t sid k e).access = t.access
      ∧ (setMapEntry t sid k e).waitMgmt = t.waitMgmt ∧ (setMapEntry t sid k e).active = t.active := by
  cases sid <;> exact ⟨rfl, rfl, rfl, rfl⟩

theorem mapWrite_words (s : State) (p : Port) (f : Frame) : (mapWrite s p f).tm.words = s.tm.words := by
  unfold mapWrite
  dsimp only
  split
  · rw [reply_tm]
  · split
    · rw [reply_tm]
    · split
      · rw [reply_tm]
      · rw [reply_tm]; exact (setMapEntry_kept _ _ _ _).1

theorem readAccess_words (s : State) (a : Access) (e : InExec) : (readAccess s a e).tm.words = s.tm.words := by
  unfold readAccess
  split
  · dsimp only
    split
    · rw [endWork_tm, endRead_words]
    all_goals
      split
      · rw [endWork_tm, endRead_words]
      · rw [continueWork_words, endRead_words]
  all_goals rfl

theorem copyAccess_words (s : State) (a : Access) (e : InExec) : (copyAccess s a e).tm.words = s.tm.words := by
  have finished (t : State) (sid : SetId) (words : List Word) : (finishSelect t e sid words).tm.words = t.tm.words := by
    unfold finishSelect; rw [endWork_tm]; rfl
  unfold copyAccess
  split
  · dsimp only
    split
    · rw [endWork_tm, endRead_words]
    all_goals
      split
      · rw [finished, endRead_words]
      · rw [continueWork_words, endRead_words]
  all_goals rfl

/-- R147, R148, R141, R154: what a command stores at the end of an access, or at its cut: the word of the access, by a
request of the Management Handler that is writing, by a table write, or the value read with one changed bit. -/
def Stores (s : State) (words : Sparse StoredWord) : Prop :=
  ∃ a ∈ s.tm.access, ∃ w, words = sparseSet blankWord s.tm.words a.index w
    ∧ (a.who = .management ∧ writing s.mg.exec ∨ a.kind.tableWrites = true
      ∨ ∃ v, checkAt s a.index = .single v ∧ w = freshWord v)

theorem writing_of {e : InExec} (exec : s.mg.exec = .some e) (run : e.work.writeRun ≠ .none) : writing s.mg.exec :=
  ⟨e, exec, run⟩

theorem writeAccess_words {a : Access} {e : InExec} (access : s.tm.access = .some a) (who : a.who = .management)
    (exec : s.mg.exec = .some e) :
    (writeAccess s a e).tm.words = s.tm.words ∨ Stores s (writeAccess s a e).tm.words := by
  unfold writeAccess
  split
  · rename_i start values pos work
    refine .inr ⟨a, access, freshWord (values.getD pos 0), ?_, .inl ⟨who, writing_of exec (by rw [work]; nofun)⟩⟩
    dsimp only
    split
    · rw [endWork_tm, endAccess_words]; rfl
    · rw [continueWork_words, endAccess_words]; rfl
  all_goals exact .inl rfl

theorem byteAccess_words {a : Access} {e : InExec} (access : s.tm.access = .some a) (who : a.who = .management)
    (exec : s.mg.exec = .some e) :
    (byteAccess s a e).tm.words = s.tm.words ∨ Stores s (byteAccess s a e).tm.words := by
  have noted := (noteRead_quiet s .management a.index).words
  unfold byteAccess
  split
  · rename_i start half bytes pos work
    dsimp only
    split
    · exact .inl (by rw [endWork_tm, endRead_words])
    all_goals
      rename_i v _
      refine .inr ⟨a, access, freshWord (mergeHalf half (byteAt bytes pos) v), ?_,
        .inl ⟨who, writing_of exec (by rw [work]; nofun)⟩⟩
      split
      · rw [endWork_tm, endAccess_words]
        show sparseSet blankWord (noteRead s .management a.index).tm.words a.index _ = _
        rw [noted]
      · rw [continueWork_words, endAccess_words]
        show sparseSet blankWord (noteRead s .management a.index).tm.words a.index _ = _
        rw [noted]
  all_goals exact .inl rfl

theorem endVisit_words (s : State) : (endVisit s).tm.words = s.tm.words ∨ Stores s (endVisit s).tm.words := by
  unfold endVisit
  split
  · rename_i a access
    split
    · have noted := (noteRead_quiet s .scrubber a.index).words
      rw [endAccess_words]
      unfold visitWord
      dsimp only
      split
      · rename_i v single
        refine .inr ⟨a, access, freshWord v, ?_, .inr (.inr ⟨v, single, rfl⟩)⟩
        show sparseSet blankWord (noteRead s .scrubber a.index).tm.words a.index _ = _
        rw [noted]
      all_goals exact .inl noted
    · exact .inl rfl
  · exact .inl rfl

theorem assertReset_words (s : State) : (assertReset s).tm.words = s.tm.words ∨ Stores s (assertReset s).tm.words := by
  have cut : (assertReset s).tm = (endCutAccess (cutPort (cutPort s .U) .D)).tm := rfl
  rw [cut]
  unfold endCutAccess
  have same : (cutPort (cutPort s .U) .D).tm = s.tm := rfl
  rw [same]
  split
  · exact .inl rfl
  · rename_i a access
    show (cutAccess _ a _).words = _ ∨ Stores s (cutAccess _ a _).words
    have writes (kind : a.kind.tableWrites = true) (w : StoredWord) :
        Stores s (storeWord s.tm a.index w).words := ⟨a, access, w, rfl, .inr (.inl kind)⟩
    unfold cutAccess
    split
    · split
      · rename_i kind; exact .inr (writes (by rw [kind]; rfl) _)
      · rename_i kind _; exact .inr (writes (by rw [kind]; rfl) _)
      · rename_i kind _; exact .inr (writes (by rw [kind]; rfl) _)
      · exact .inl rfl
      · rename_i v _ single; exact .inr ⟨a, access, freshWord v, rfl, .inr (.inr ⟨v, single, rfl⟩)⟩
      all_goals exact .inl rfl
    · exact .inl rfl

/-- The commands that store a word at the end of an access, or at its cut. -/
def storing : List Instr := [.tableWriteAccess, .byteWriteAccess, .scrubVisit, .resetAssert]

/-- R134: every command leaves the words, stores the word of the access in progress, or ends the sweep. -/
theorem effect_words (c : Instr) (s : State) : (effect c s).tm.words = s.tm.words
    ∨ c ∈ storing ∧ Stores s (effect c s).tm.words ∨ c = .sweepComplete ∧ (effect c s).tm.words = [] := by
  by_cases quiet : c ∉ managing
  · refine .inl ((effect_along c s).keeps (J := fun l => l.memory.words = s.tm.words) (fun l m step h => ?_) rfl)
    cases step with
    | quiet t same => exact same.words.trans h
    | managed _ _ permitted => exact absurd permitted quiet
    | slots | moded | next | freed | opened | filled | lost | stored | quotaSet | committed | retired | joined
      | started | ended | withdrawn | cleared | reset | counted | closed => exact h
  · simp only [managing, List.mem_cons, List.not_mem_nil, or_false, not_not] at quiet
    have request {code : Nat} {k : State → Port → Frame → State} (hk : ∀ t p f, (k t p f).tm.words = t.tm.words) :
        (takeRequest code k s).tm.words = s.tm.words :=
      takeRequestIf_keeps (I := fun t => t.tm.words = s.tm.words) rfl (fun t p f _ h => (hk t p f).trans h) rfl
    have accessed {k : State → Access → InExec → State} {P : Sparse StoredWord → Prop} (same : P s.tm.words)
        (hk : ∀ a e, s.tm.access = .some a → a.who = .management → s.mg.exec = .some e → P (k s a e).tm.words) :
        P (mgmtAccess k s).tm.words := mgmtAccess_keeps (I := fun t => P t.tm.words) hk same
    obtain rfl | rfl | rfl | rfl | rfl | rfl | rfl | rfl | rfl | rfl | rfl | rfl | rfl | rfl | rfl := quiet
    · exact .inl (request tableRead_words)
    · exact .inl (request tableWrite_words)
    · exact .inl (request tableWriteByte_words)
    · exact .inl (accessed (P := (· = s.tm.words)) rfl fun a e _ _ _ => readAccess_words s a e)
    · refine (accessed (k := writeAccess) (P := fun w => w = s.tm.words ∨ Stores s w) (.inl rfl)
        fun a e access who exec => writeAccess_words access who exec).imp id fun h => .inl ⟨by simp [storing], h⟩
    · refine (accessed (k := byteAccess) (P := fun w => w = s.tm.words ∨ Stores s w) (.inl rfl)
        fun a e access who exec => byteAccess_words access who exec).imp id fun h => .inl ⟨by simp [storing], h⟩
    · exact .inl (request mapWrite_words)
    · exact .inl (request setSelect_words)
    · exact .inl (accessed (P := (· = s.tm.words)) rfl fun a e _ _ _ => copyAccess_words s a e)
    · exact (endVisit_words s).imp id fun h => .inl ⟨by simp [storing], h⟩
    · exact .inl (request fun t p f => by rw [softResetRequest, reply_tm]; rfl)
    · exact .inl rfl
    · rw [show effect .sweepComplete s = endSweep s from rfl]
      unfold endSweep
      split
      · exact .inr (.inr ⟨rfl, rfl⟩)
      · exact .inl rfl
    · exact (assertReset_words s).imp id fun h => .inl ⟨by simp [storing], h⟩
    · exact .inl rfl

/-- Settles O5: the commands named apart, none stores a word. -/
theorem wordsChangeOnlyByWriteAccesses : Obligations.WordsChangeOnlyByWriteAccesses := by
  intro c s t other h i
  simp only [List.mem_cons, List.not_mem_nil, or_false, not_or] at other
  obtain ⟨notWrite, notByte, notVisit, notSweep, notReset⟩ := other
  have words : t.tm.words = s.tm.words := by
    obtain rfl | rfl | ⟨rfl, rfl⟩ := exec_cases h
    · rfl
    · exact (effect_words c s).resolve_right fun h => h.elim
        (fun h => by simp [storing, notWrite, notByte, notVisit, notReset] at h) fun h => notSweep h.1
    · rfl
  unfold storedAt
  rw [words]

theorem storesCanonical_iff (s : State) :
    StoresCanonical s ↔ sparseWf blankWord s.tm.words = true ∧ lineCanonical (lineOf s) := by
  have buffers : (∀ b ∈ s.sa.buffers.toList, sparseWf 0 b = true)
      ↔ ∀ k : Fin 24, sparseWf 0 s.sa.buffers[k] = true := by
    simp only [Vector.mem_toList_iff, Vector.mem_iff_getElem, Fin.forall_iff, Fin.getElem_fin]
    exact ⟨fun h i hi => h _ ⟨i, hi, rfl⟩, fun h _ ⟨i, hi, e⟩ => e ▸ h i hi⟩
  unfold StoresCanonical
  rw [buffers]
  rfl

/-- Settles O8: the words access by access, the other stores along the line. -/
theorem stepKeepsStoresCanonical : Obligations.StepKeepsStoresCanonical := fun _ _ hs =>
  step_keeps (I := StoresCanonical) (fun _ _ h => h)
    (fun c s h => by
      obtain ⟨words, line⟩ := (storesCanonical_iff s).1 h
      refine (storesCanonical_iff _).2 ⟨?_, (effect_along c s).keeps lineCanonical_step line⟩
      obtain same | ⟨-, a, -, w, stored, -⟩ | ⟨-, swept⟩ := effect_words c s
      · rw [same]; exact words
      · rw [stored]; exact sparseSet_wf blankWord _ _ words
      · rw [swept]; rfl)
    (fun s h => by
      obtain ⟨words, line⟩ := (storesCanonical_iff s).1 h
      exact (storesCanonical_iff _).2 ⟨words, (releaseReset_givenBy s).keeps lineCanonical_step line⟩) hs

end
end Sys2Proof.Proofs
end

section
/-! SUPPORT. What protects the pages in use (R143): the accesses of the Management Handler are those of its request in
execution, and a table write runs inside one page that is not in use, from its check to its end. -/

namespace Sys2Proof.Proofs

open Sys2Proof Sys2Proof.Machine

/-! ### Accesses -/

/-- R138: no access of the Management Handler is made or asked for. -/
def managementIdle (t : TableMemory) : Prop :=
  (∀ a ∈ t.access, a.who ≠ .management ∧ a.kind.tableWrites = false) ∧ t.waitMgmt = .none

theorem accessGuarded_none_iff (t : TableMemory) : AccessGuarded .none t ↔ managementIdle t := by
  constructor
  · intro h
    have other (a : Access) (ha : a ∈ t.access) : a.who ≠ .management := fun mine => (h.alone a ha mine).2 rfl
    refine ⟨fun a ha => ⟨other a ha, ?_⟩, ?_⟩
    · by_contra writes
      exact other a ha (h.owned a ha (Bool.not_eq_false _ ▸ writes))
    · by_contra waits
      exact h.waits waits rfl
  · rintro ⟨access, waits⟩
    refine ⟨fun a ha writes => ?_, fun a ha mine => absurd mine (access a ha).1, fun some => absurd waits some,
      fun a ha => ⟨fun mine => absurd mine (access a ha).1, fun writes => ?_⟩, fun w hw => ?_⟩
    · rw [(access a ha).2] at writes; cases writes
    · rw [(access a ha).2] at writes; cases writes
    · rw [waits] at hw; cases hw

/-- R175: the next access of a request is asked for when none is made. -/
theorem accessGuarded_asked {t : TableMemory} {e : InExec} {i : Nat} {k : AccessKind} (idle : managementIdle t)
    (inRun : inRunOf (.some e) i) (writes : k.tableWrites = true → e.work.writeRun ≠ .none) :
    AccessGuarded (.some e) { t with waitMgmt := .some (i, k) } := by
  obtain ⟨access, waits⟩ := idle
  refine ⟨fun a ha writes => ?_, fun a ha mine => absurd mine (access a ha).1, fun _ => nofun,
    fun a ha => ⟨fun mine => absurd mine (access a ha).1, fun writes => ?_⟩, fun w hw => ?_⟩
  · rw [(access a ha).2] at writes; cases writes
  · rw [(access a ha).2] at writes; cases writes
  · cases hw; exact ⟨inRun, fun h => ⟨e, rfl, writes h⟩⟩

section
variable {s : State}

theorem requestMgmt_guarded {e : InExec} {i : Nat} {k : AccessKind} (idle : managementIdle s.tm)
    (inRun : inRunOf (.some e) i) (writes : k.tableWrites = true → e.work.writeRun ≠ .none) :
    AccessGuarded (.some e) (requestMgmt s i k).tm :=
  (grant_quiet (s.updTm fun t => { t with waitMgmt := .some (i, k) })).guarded _
    (accessGuarded_asked idle inRun writes)

/-- R138: at the end of an access of the Management Handler, which has one at a time, it has none. -/
theorem endAccess_idle (waits : s.tm.waitMgmt = .none) : managementIdle (endAccess s).tm := by
  refine (accessGuarded_none_iff _).1 ((grant_quiet (s.updTm fun t => { t with access := .none })).guarded .none ?_)
  exact (accessGuarded_none_iff _).2 ⟨nofun, waits⟩

theorem noteRead_waitMgmt (s : State) (who : Requester) (i : Nat) :
    (noteRead s who i).tm.waitMgmt = s.tm.waitMgmt := by
  unfold noteRead
  split
  · rfl
  · rfl
  · rw [raiseAlert_touches _ _ .tm (by decide)]; rfl

theorem endRead_idle (waits : s.tm.waitMgmt = .none) (who : Requester) (i : Nat) :
    managementIdle (endAccess (noteRead s who i)).tm := endAccess_idle (by rw [noteRead_waitMgmt]; exact waits)

/-! ### Pages -/

/-- What the pages in use are read from. -/
def pageView (s : State) : Option SetId × Vector (Option MapEntry) 10 × Vector (Option MapEntry) 10 × Option SetId :=
  (s.tm.active, s.tm.map0, s.tm.map1, latchedSet s)

theorem namesPage_of_maps {t u : TableMemory} (map0 : u.map0 = t.map0) (map1 : u.map1 = t.map1) (sid : SetId)
    (page : Nat) : namesPage u sid page = namesPage t sid page := by
  cases sid
  · show (u.map0.toList.any _) = _; rw [map0]; rfl
  · show (u.map1.toList.any _) = _; rw [map1]; rfl

theorem pageInUse_of_view {s t : State} (h : pageView t = pageView s) (page : Nat) :
    pageInUse t page = pageInUse s page := by
  simp only [pageView, Prod.mk.injEq] at h
  obtain ⟨active, map0, map1, latched⟩ := h
  unfold pageInUse
  rw [active, latched]
  simp only [namesPage_of_maps map0 map1]

/-- R143: every table write in execution runs inside one page that is not in use. -/
def runsOutside (s : State) : Prop :=
  ∀ e ∈ s.mg.exec, ∀ r ∈ e.work.writeRun, r.1 % 256 + r.2 ≤ 256 ∧ pageInUse s (r.1 / 256) = false

/-- R14, R49: what needs an active set. -/
def needsSet (l : Line) : Prop :=
  l.mode = .run ∨ (∃ k : Fin 64, l.ring[k].origin = .run) ∨ l.queue ≠ [] ∨ l.job ≠ .none

theorem setWhereNeeded_iff (s : State) : SetWhereNeeded s ↔ (needsSet (lineOf s) → s.tm.active ≠ .none) := by
  have slots : (∃ sl ∈ s.ring.toList, sl.origin = .run) ↔ ∃ k : Fin 64, s.ring[k].origin = .run := by
    simp only [Vector.mem_toList_iff, Vector.mem_iff_getElem, Fin.exists_iff, Fin.getElem_fin]
    exact ⟨fun ⟨_, ⟨i, hi, e⟩, run⟩ => ⟨i, hi, e ▸ run⟩, fun ⟨i, hi, run⟩ => ⟨_, ⟨i, hi, rfl⟩, run⟩⟩
  have job : s.opt.job ≠ .none ↔ (lineOf s).job ≠ .none := by simp [lineOf]
  unfold SetWhereNeeded needsSet
  rw [slots, job]
  rfl

/-- What protects the pages in use, cut where its parts are kept by different means. -/
theorem writesGuarded_iff (s : State) : WritesGuarded s ↔
    (needsSet (lineOf s) → s.tm.active ≠ .none) ∧ AccessGuarded s.mg.exec s.tm ∧ runsOutside s := by
  unfold WritesGuarded
  rw [setWhereNeeded_iff]
  exact ⟨fun ⟨set, ⟨owned, alone, waits⟩, runs, access, waiting⟩ =>
      ⟨set, ⟨owned, alone, waits, access, waiting⟩, runs⟩,
    fun ⟨set, ⟨owned, alone, waits, access, waiting⟩, runs⟩ =>
      ⟨set, ⟨owned, alone, waits⟩, runs, access, waiting⟩⟩

/-! ### Commands that leave Table Memory to its requesters -/

/-- A line that has come from a state's without the Management Handler: its accesses are guarded as they were, what
needs a set has one, and a job has latched the set latched before or the active one. -/
def keptQuiet (s : State) (l : Line) : Prop :=
  QuietMemory s.tm l.memory ∧ l.exec = s.mg.exec ∧ (needsSet l → s.tm.active ≠ .none)
    ∧ ∀ j ∈ l.job, .some j.2 = s.tm.active ∨ .some j.2 = latchedSet s

theorem needsSet_of_slots {l m : Line} (h : needsSet m) (mode : m.mode = l.mode) (queue : m.queue = l.queue)
    (job : m.job = l.job) (slots : ∀ k : Fin 64, m.ring[k].origin = .run → needsSet l) : needsSet l := by
  obtain run | ⟨k, run⟩ | waiting | atWork := h
  · exact .inl (mode ▸ run)
  · exact slots k run
  · exact .inr (.inr (.inl (queue ▸ waiting)))
  · exact .inr (.inr (.inr (job ▸ atWork)))

theorem needsSet_put {l : Line} {lug : LugSeq} {sl : Slot} (origin : sl.origin = .run → needsSet l) (k : Fin 64)
    (h : (l.put lug sl).ring[k].origin = .run) : needsSet l := by
  rw [l.getElem_put] at h
  split at h
  · exact origin h
  · exact .inr (.inl ⟨k, h⟩)

theorem needsSet_slot {l : Line} {lug : LugSeq} (h : (l.slot lug).origin = .run) : needsSet l :=
  .inr (.inl ⟨⟨lug.toNat % 64, Nat.mod_lt _ (by decide)⟩, h⟩)

/-- What needs a set after a change needed one before, but for RUN, which is entered with one. -/
theorem needsSet_step {given : Given} {l m : Line} (step : LineStep given l m) (h : needsSet m) :
    needsSet l ∨ l.memory.active ≠ .none := by
  cases step with
  | slots r alike =>
    exact .inl (needsSet_of_slots h rfl rfl rfl fun k run => .inr (.inl ⟨k, (alike k).origin.symm.trans run⟩))
  | moded m enters =>
    obtain run | rest := h
    · exact .inr (enters run)
    · exact .inl (.inr rest)
  | next sl _ _ origin =>
    exact .inl (needsSet_of_slots (l := l) h rfl rfl rfl (needsSet_put fun run => .inl (origin.symm.trans run)))
  | freed lug =>
    exact .inl (needsSet_of_slots (l := l) h rfl rfl rfl (needsSet_put (lug := lug)
      (sl := { l.slot lug with buffer := .none }) fun run => needsSet_slot run))
  | opened lug sl _ _ _ _ _ origin =>
    exact .inl (needsSet_of_slots (l := l) h rfl rfl rfl (needsSet_put (lug := lug)
      fun run => needsSet_slot (origin.symm.trans run)))
  | committed lug sl _ _ origin =>
    exact .inl (needsSet_of_slots (l := l) h rfl rfl rfl (needsSet_put (lug := lug)
      fun run => needsSet_slot (origin.symm.trans run)))
  | retired lug =>
    exact .inl (needsSet_of_slots (l := l) h rfl rfl rfl (needsSet_put (lug := lug) (sl := Slot.empty _) nofun))
  | joined lug off origin => exact .inl (needsSet_slot origin)
  | started lug rest queue => exact .inl (.inr (.inr (.inl (by rw [queue]; nofun))))
  | ended =>
    obtain run | slot | waiting | atWork := h
    · exact .inl (.inl run)
    · exact .inl (.inr (.inl slot))
    · exact .inl (.inr (.inr (.inl waiting)))
    · exact absurd rfl atWork
  | withdrawn q sub =>
    obtain run | slot | waiting | atWork := h
    · exact .inl (.inl run)
    · exact .inl (.inr (.inl slot))
    · exact .inl (.inr (.inr (.inl fun none => waiting (List.sublist_nil.1 (none ▸ sub)))))
    · exact .inl (.inr (.inr (.inr atWork)))
  | cleared =>
    obtain run | ⟨k, run⟩ | waiting | atWork := h
    · exact .inl (.inl run)
    · have empty : (emptyRing l.ring)[k].origin = .run := run
      rw [getElem_emptyRing] at empty; cases empty
    · exact absurd rfl waiting
    · exact absurd rfl atWork
  | reset =>
    obtain run | ⟨k, run⟩ | waiting | atWork := h
    · cases run
    · have empty : (State.reset.ring[k]).origin = .run := run
      rw [reset_slot] at empty; cases empty
    · exact absurd rfl waiting
    · exact absurd rfl atWork
  | filled | lost | stored | quotaSet | quiet | managed | counted | closed => exact .inl h

theorem keptQuiet_step {given : Given} (unmanaged : ¬ given.manages) (l m : Line) (step : LineStep given l m)
    (h : keptQuiet s l) : keptQuiet s m := by
  obtain ⟨quiet, exec, set, latched⟩ := h
  have still (h : needsSet m) : s.tm.active ≠ .none :=
    (needsSet_step step h).elim set fun active => quiet.active ▸ active
  cases step with
  | started lug rest queue =>
    refine ⟨quiet, exec, still, fun j hj => .inl ?_⟩
    cases hj
    obtain ⟨sid, active⟩ := Option.ne_none_iff_exists'.1 (set (.inr (.inr (.inl (by rw [queue]; nofun)))))
    rw [quiet.active, active]; rfl
  | quiet t more => exact ⟨quiet.trans more, exec, still, latched⟩
  | managed _ _ permitted => exact absurd permitted unmanaged
  | ended => exact ⟨quiet, exec, still, nofun⟩
  | cleared => exact ⟨quiet, exec, still, nofun⟩
  | reset => exact ⟨quiet, exec, still, nofun⟩
  | slots | moded | next | freed | opened | filled | lost | stored | quotaSet | committed | retired | joined
    | withdrawn | counted | closed => exact ⟨quiet, exec, still, latched⟩

theorem writesGuarded_of_quiet {t : State} (h : WritesGuarded s) (kept : keptQuiet s (lineOf t)) : WritesGuarded t := by
  obtain ⟨_, access, runs⟩ := (writesGuarded_iff s).1 h
  obtain ⟨quiet, exec, set, latched⟩ := kept
  have exec : t.mg.exec = s.mg.exec := exec
  refine (writesGuarded_iff t).2 ⟨fun needs => ?_, ?_, fun e he r hr => ?_⟩
  · have := set needs
    rwa [← quiet.active] at this
  · rw [exec]; exact quiet.guarded _ access
  · rw [exec] at he
    obtain ⟨fits, free⟩ := runs e he r hr
    refine ⟨fits, ?_⟩
    have names (sid : SetId) (page : Nat) : namesPage t.tm sid page = namesPage s.tm sid page :=
      namesPage_of_maps quiet.map0 quiet.map1 sid page
    have outside {sid : SetId} (inUse : .some sid = s.tm.active ∨ .some sid = latchedSet s) :
        namesPage s.tm sid (r.1 / 256) = false := by
      by_contra named
      have named : namesPage s.tm sid (r.1 / 256) = true := Bool.not_eq_false _ ▸ named
      have used : pageInUse s (r.1 / 256) = true := by
        unfold pageInUse
        obtain h | h := inUse
        · rw [← h]; simp [named]
        · rw [← h]; simp [named]
      rw [free] at used; cases used
    have active : t.tm.active = s.tm.active := quiet.active
    have job (sid : SetId) (h : latchedSet t = .some sid) : .some sid = s.tm.active ∨ .some sid = latchedSet s := by
      obtain ⟨j, atWork, rfl⟩ := Option.map_eq_some_iff.1 h
      exact latched (j.lug, j.set) (by show Option.map _ _ = _; rw [atWork]; rfl)
    unfold pageInUse
    simp only [names, active]
    cases first : s.tm.active with
    | none =>
      cases second : latchedSet t with
      | none => rfl
      | some sid => simp [outside (job sid second)]
    | some one =>
      have one_out := outside (.inl first.symm)
      cases second : latchedSet t with
      | none => simp [one_out]
      | some sid => simp [one_out, outside (job sid second)]

/-! ### Commands that work on Table Memory -/

/-- R143: a guard over a state whose line needs no more than another's, with its accesses and runs. -/
theorem writesGuarded_of_parts {t : State} (line : needsSet (lineOf t) → needsSet (lineOf s))
    (active : s.tm.active ≠ .none → t.tm.active ≠ .none) (access : AccessGuarded t.mg.exec t.tm) (runs : runsOutside t)
    (h : WritesGuarded s) : WritesGuarded t :=
  (writesGuarded_iff t).2 ⟨fun needs => active (((writesGuarded_iff s).1 h).1 (line needs)), access, runs⟩

theorem needsSet_of_frame {t : State} {N : List Block} (f : unchangedBut N s t)
    (apart : ∀ b ∈ [Block.ct, .ring, .opt], b ∉ N) (h : needsSet (lineOf t)) : needsSet (lineOf s) := by
  unfold needsSet lineOf at h ⊢
  rw [f .ct (apart _ (by decide)), f .ring (apart _ (by decide)), f .opt (apart _ (by decide))] at h
  exact h

/-- A request that does not enter execution, or ends: nothing is written, and nothing asked for. -/
theorem writesGuarded_idle {t : State} {N : List Block} (f : unchangedBut N s t)
    (apart : ∀ b ∈ [Block.ct, .ring, .opt], b ∉ N) (active : s.tm.active ≠ .none → t.tm.active ≠ .none)
    (exec : t.mg.exec = .none) (idle : managementIdle t.tm) (h : WritesGuarded s) : WritesGuarded t :=
  writesGuarded_of_parts (needsSet_of_frame f apart) active (by rw [exec]; exact (accessGuarded_none_iff _).2 idle)
    (fun e he => by rw [exec] at he; cases he) h

/-- A request in execution whose next access is asked for. -/
theorem writesGuarded_asked {t : State} {N : List Block} {e : InExec} (f : unchangedBut N s t)
    (apart : ∀ b ∈ [Block.ct, .ring, .opt], b ∉ N) (view : pageView t = pageView s) (exec : t.mg.exec = .some e)
    (access : AccessGuarded (.some e) t.tm)
    (runs : ∀ r ∈ e.work.writeRun, r.1 % 256 + r.2 ≤ 256 ∧ pageInUse s (r.1 / 256) = false)
    (h : WritesGuarded s) : WritesGuarded t := by
  refine writesGuarded_of_parts (needsSet_of_frame f apart) ?_ (by rw [exec]; exact access) (fun d hd r hr => ?_) h
  · rw [show t.tm.active = s.tm.active from congrArg Prod.fst view]; exact id
  · rw [exec] at hd
    cases hd
    rw [pageInUse_of_view view]; exact runs r hr

theorem requestMgmt_view (s : State) (i : Nat) (k : AccessKind) : pageView (requestMgmt s i k) = pageView s := by
  have quiet := grant_quiet (s.updTm fun t => { t with waitMgmt := .some (i, k) })
  have opt : (requestMgmt s i k).opt = s.opt := requestMgmt_touches s i k .opt (by decide)
  have latched : latchedSet (requestMgmt s i k) = latchedSet s := by unfold latchedSet; rw [opt]
  unfold pageView
  rw [latched]
  simp only [Prod.mk.injEq, and_true]
  exact ⟨quiet.active, quiet.map0, quiet.map1⟩

theorem requestMgmt_mg (s : State) (i : Nat) (k : AccessKind) : (requestMgmt s i k).mg = s.mg :=
  requestMgmt_touches s i k .mg (by decide)

theorem reply_guarded (p : Port) (f : Frame) (r : Result) (data : List Byte) (exec : s.mg.exec = .none)
    (idle : managementIdle s.tm) (h : WritesGuarded s) : WritesGuarded (reply s p f r data) :=
  writesGuarded_idle (reply_touches s p f r data) (by decide) (by rw [reply_tm]; exact id)
    (by rw [reply_touches s p f r data .mg (by decide)]; exact exec) (by rw [reply_tm]; exact idle) h

theorem beginWork_guarded (p : Port) (f : Frame) {w : Work} {i : Nat} {k : AccessKind} (idle : managementIdle s.tm)
    (inRun : ∀ r ∈ w.writeRun, r.1 ≤ i ∧ i < r.1 + r.2) (writes : k.tableWrites = true → w.writeRun ≠ .none)
    (runs : ∀ r ∈ w.writeRun, r.1 % 256 + r.2 ≤ 256 ∧ pageInUse s (r.1 / 256) = false) (h : WritesGuarded s) :
    WritesGuarded (beginWork s p f w i k) :=
  writesGuarded_asked (beginWork_touches s p f w i k) (by decide) (requestMgmt_view _ i k) (by
      unfold beginWork; rw [requestMgmt_mg]; rfl)
    (requestMgmt_guarded (e := { port := p, frame := f, work := w }) idle (fun e he => by cases he; exact inRun) writes)
    runs h

/-- R175: a request is taken with none in execution, and so with no access of the Management Handler. -/
theorem managementIdle_of_ready (ready : mgmtReady s = true) (h : WritesGuarded s) :
    s.mg.exec = .none ∧ managementIdle s.tm := by
  have exec : s.mg.exec = .none := by
    simp only [mgmtReady, Bool.and_eq_true, Option.isNone_iff_eq_none] at ready; exact ready.1
  have access := ((writesGuarded_iff s).1 h).2.1
  rw [exec] at access
  exact ⟨exec, (accessGuarded_none_iff _).1 access⟩

theorem takeRequest_guarded {code : Nat} {k : State → Port → Frame → State}
    (hk : ∀ t p f, t.mg.exec = .none → managementIdle t.tm → WritesGuarded t → WritesGuarded (k t p f))
    (h : WritesGuarded s) : WritesGuarded (takeRequest code k s) :=
  takeRequestIf_keeps h (fun t p f ready ht => by
    obtain ⟨exec, idle⟩ := managementIdle_of_ready ready ht
    exact hk t p f exec idle ht) h

/-! ### Table requests -/

/-- R145: what check 1 says of the fields of a table request. -/
theorem tableArgs_some {args : List Byte} {limit fixed width : Nat} {a : TableArgs}
    (h : tableArgs args limit fixed width = .some a) :
    1 ≤ a.count ∧ a.first + a.count ≤ 256 ∧ fixed + width * a.count ≤ args.length := by
  unfold tableArgs at h
  dsimp only at h
  split at h
  · cases h
  · split at h
    · rename_i checked
      obtain ⟨-, some, -, fits, long⟩ := checked
      cases h; exact ⟨some, fits, long⟩
    · cases h

/-- R145: an entry that passes the checks of a write maps a page that is not in use. -/
theorem tableEntry_writes {a : TableArgs} {page : Nat} (h : tableEntry s a true = .ok page) :
    pageInUse s page = false := by
  unfold tableEntry at h
  split at h
  · cases h
  · split at h
    · cases h
    · split at h
      · cases h
      · rename_i free
        simp only [Bool.true_and, Bool.not_eq_true] at free
        cases h; exact free

/-- R143: the words of a sound request lie in one page. -/
theorem run_in_page {page first count : Nat} (some : 1 ≤ count) (fits : first + count ≤ 256) :
    (page * 256 + first) % 256 + count ≤ 256 ∧ (page * 256 + first) / 256 = page := by omega

theorem tableRead_guarded (p : Port) (f : Frame) (exec : s.mg.exec = .none) (idle : managementIdle s.tm)
    (h : WritesGuarded s) : WritesGuarded (tableRead s p f) := by
  unfold tableRead
  split
  · exact reply_guarded p f _ _ exec idle h
  · split
    · exact reply_guarded p f _ _ exec idle h
    · exact beginWork_guarded p f idle nofun nofun nofun h

theorem setSelect_guarded (p : Port) (f : Frame) (exec : s.mg.exec = .none) (idle : managementIdle s.tm)
    (h : WritesGuarded s) : WritesGuarded (setSelect s p f) := by
  unfold setSelect
  split
  · exact reply_guarded p f _ _ exec idle h
  · split
    · exact beginWork_guarded p f idle nofun nofun nofun h
    · exact reply_guarded p f _ _ exec idle h

theorem tableWrite_guarded (p : Port) (f : Frame) (exec : s.mg.exec = .none) (idle : managementIdle s.tm)
    (h : WritesGuarded s) : WritesGuarded (tableWrite s p f) := by
  unfold tableWrite
  split
  · exact reply_guarded p f _ _ exec idle h
  · rename_i a args
    split
    · exact reply_guarded p f _ _ exec idle h
    · rename_i page entry
      obtain ⟨some, fits, -⟩ := tableArgs_some args
      have count : (writeValues (requestArgs f) a.count).length = a.count := by simp [writeValues]
      obtain ⟨inPage, name⟩ := run_in_page (page := page) some fits
      refine beginWork_guarded p f idle (fun r hr => ?_) (fun _ => nofun) (fun r hr => ?_) h
      all_goals cases hr; dsimp only; rw [count]
      · omega
      · rw [name]; exact ⟨inPage, tableEntry_writes entry⟩

theorem tableWriteByte_guarded (p : Port) (f : Frame) (exec : s.mg.exec = .none) (idle : managementIdle s.tm)
    (h : WritesGuarded s) : WritesGuarded (tableWriteByte s p f) := by
  unfold tableWriteByte
  split
  · rename_i a half args _
    split
    · exact reply_guarded p f _ _ exec idle h
    · rename_i page entry
      obtain ⟨some, fits, long⟩ := tableArgs_some args
      have count : (((requestArgs f).drop 5).take a.count).length = a.count := by
        rw [List.length_take, List.length_drop]; omega
      obtain ⟨inPage, name⟩ := run_in_page (page := page) some fits
      refine beginWork_guarded p f idle (fun r hr => ?_) (fun _ => nofun) (fun r hr => ?_) h
      all_goals cases hr; dsimp only; rw [count]
      · omega
      · rw [name]; exact ⟨inPage, tableEntry_writes entry⟩
  · exact reply_guarded p f _ _ exec idle h

theorem managementIdle_of_same {t u : TableMemory} (access : u.access = t.access) (waits : u.waitMgmt = t.waitMgmt)
    (h : managementIdle t) : managementIdle u := by
  unfold managementIdle; rw [access, waits]; exact h

theorem mapWrite_guarded (p : Port) (f : Frame) (exec : s.mg.exec = .none) (idle : managementIdle s.tm)
    (h : WritesGuarded s) : WritesGuarded (mapWrite s p f) := by
  unfold mapWrite
  dsimp only
  split
  · exact reply_guarded p f _ _ exec idle h
  · rename_i sid _
    split
    · exact reply_guarded p f _ _ exec idle h
    · split
      · exact reply_guarded p f _ _ exec idle h
      · have kept := setMapEntry_kept s.tm sid (num8 (requestArgs f) 1) (askedEntry (requestArgs f))
        have same : managementIdle (setMapEntry s.tm sid (num8 (requestArgs f) 1) (askedEntry (requestArgs f))) :=
          managementIdle_of_same kept.2.1 kept.2.2.1 idle
        exact reply_guarded p f _ _ exec same (writesGuarded_idle (updTm_touches s _) (by decide)
          (by show _ → (setMapEntry s.tm _ _ _).active ≠ _; rw [kept.2.2.2]; exact id) exec same h)

/-! ### Accesses of the request in execution -/

/-- What leaves accesses guarded and the pages in use as they are. -/
theorem writesGuarded_kept {t : State} {N : List Block} (f : unchangedBut N s t)
    (apart : ∀ b ∈ [Block.ct, .ring, .opt, .mg], b ∉ N) (map0 : t.tm.map0 = s.tm.map0) (map1 : t.tm.map1 = s.tm.map1)
    (active : t.tm.active = s.tm.active) (guarded : ∀ exec, AccessGuarded exec s.tm → AccessGuarded exec t.tm)
    (h : WritesGuarded s) : WritesGuarded t := by
  have view : pageView t = pageView s := by
    have latched : latchedSet t = latchedSet s := by
      unfold latchedSet; rw [f .opt (apart _ (by decide))]
    unfold pageView
    rw [latched, map0, map1, active]
  have mg : t.mg = s.mg := f .mg (apart _ (by decide))
  obtain ⟨_, access, runs⟩ := (writesGuarded_iff s).1 h
  refine writesGuarded_of_parts (needsSet_of_frame f fun b hb => apart b (by
    simp only [List.mem_cons, List.not_mem_nil, or_false] at hb ⊢
    obtain rfl | rfl | rfl := hb <;> simp)) (by rw [active]; exact id) (by rw [mg]; exact guarded _ access)
    (fun e he r hr => ?_) h
  rw [mg] at he
  rw [pageInUse_of_view view]
  exact runs e he r hr

theorem writesGuarded_quiet {t : State} {N : List Block} (f : unchangedBut N s t)
    (apart : ∀ b ∈ [Block.ct, .ring, .opt, .mg], b ∉ N) (quiet : QuietMemory s.tm t.tm) (h : WritesGuarded s) :
    WritesGuarded t := writesGuarded_kept f apart quiet.map0 quiet.map1 quiet.active quiet.guarded h

theorem accessGuarded_of_same {exec : Option InExec} {t u : TableMemory} (access : u.access = t.access)
    (waits : u.waitMgmt = t.waitMgmt) (h : AccessGuarded exec t) : AccessGuarded exec u :=
  ⟨access ▸ h.owned, access ▸ waits ▸ h.alone, waits ▸ h.waits, access ▸ h.access, waits ▸ h.waiting⟩

theorem noteRead_guarded (who : Requester) (i : Nat) (h : WritesGuarded s) : WritesGuarded (noteRead s who i) :=
  writesGuarded_quiet (noteRead_touches s who i) (by decide) (noteRead_quiet s who i) h

theorem endAccess_guarded (h : WritesGuarded s) : WritesGuarded (endAccess s) :=
  writesGuarded_quiet (endAccess_touches s) (by decide)
    (.trans (.ended _) (grant_quiet (s.updTm fun t => { t with access := .none }))) h

theorem storeWord_guarded (i : Nat) (w : StoredWord) (h : WritesGuarded s) :
    WritesGuarded (s.updTm fun t => storeWord t i w) :=
  writesGuarded_kept (updTm_touches s _) (by decide) rfl rfl rfl (fun _ => accessGuarded_of_same rfl rfl) h

theorem continueWork_guarded {e : InExec} {w : Work} {i : Nat} {k : AccessKind} (exec : s.mg.exec = .some e)
    (idle : managementIdle s.tm) (same : w.writeRun = e.work.writeRun)
    (inRun : ∀ r ∈ w.writeRun, r.1 ≤ i ∧ i < r.1 + r.2) (writes : k.tableWrites = true → w.writeRun ≠ .none)
    (h : WritesGuarded s) : WritesGuarded (continueWork s e w i k) :=
  writesGuarded_asked (continueWork_touches s e w i k) (by decide) (requestMgmt_view _ i k) (by
      unfold continueWork; rw [requestMgmt_mg]; rfl)
    (requestMgmt_guarded (e := { e with work := w }) idle (fun d hd => by cases hd; exact inRun) writes)
    (fun r hr => ((writesGuarded_iff s).1 h).2.2 e exec r (same ▸ hr)) h

theorem endWork_exec (s : State) (e : InExec) (r : Result) (data : List Byte) :
    (endWork s e r data).mg.exec = .none := by
  unfold endWork; rw [reply_touches _ _ _ _ _ .mg (by decide)]; rfl

theorem endWork_guarded (e : InExec) (r : Result) (data : List Byte) (idle : managementIdle s.tm)
    (h : WritesGuarded s) : WritesGuarded (endWork s e r data) :=
  writesGuarded_idle (endWork_touches s e r data) (by decide) (by rw [endWork_tm]; exact id)
    (endWork_exec s e r data) (by rw [endWork_tm]; exact idle) h

/-- R138: while the access of a request is made, it asks for no other. -/
theorem waitMgmt_of_access {a : Access} (access : s.tm.access = .some a) (who : a.who = .management)
    (h : WritesGuarded s) : s.tm.waitMgmt = .none := (((writesGuarded_iff s).1 h).2.1.alone a access who).1

section
variable {a : Access} {e : InExec} (access : s.tm.access = .some a) (who : a.who = .management)
  (exec : s.mg.exec = .some e) (h : WritesGuarded s)
include access who exec h

/-- The state at the end of a read for the request in execution. -/
theorem ended_read_guarded : WritesGuarded (endAccess (noteRead s .management a.index))
    ∧ managementIdle (endAccess (noteRead s .management a.index)).tm
    ∧ (endAccess (noteRead s .management a.index)).mg.exec = .some e :=
  ⟨endAccess_guarded (noteRead_guarded _ _ h), endRead_idle (waitMgmt_of_access access who h) _ _,
    (congrArg (·.exec) (endRead_touches s .management a.index .mg (by decide))).trans exec⟩

theorem readAccess_guarded : WritesGuarded (readAccess s a e) := by
  obtain ⟨guarded, idle, still⟩ := ended_read_guarded access who exec h
  unfold readAccess
  split
  · rename_i work
    have reads {start count : Nat} {got : List Word} : (Work.read start count got).writeRun = e.work.writeRun := by
      rw [work]; rfl
    dsimp only
    split
    · exact endWork_guarded _ _ _ idle guarded
    all_goals
      split
      · exact endWork_guarded _ _ _ idle guarded
      · exact continueWork_guarded still idle reads nofun nofun guarded
  all_goals exact h

theorem copyAccess_guarded : WritesGuarded (copyAccess s a e) := by
  obtain ⟨guarded, idle, still⟩ := ended_read_guarded access who exec h
  have finished (sid : SetId) (words : List Word) :
      WritesGuarded (finishSelect (endAccess (noteRead s .management a.index)) e sid words) := by
    refine writesGuarded_idle (finishSelect_touches _ e sid words) (by decide) (fun _ => ?_) (endWork_exec _ _ _ _) ?_
      guarded
    all_goals
      unfold finishSelect
      rw [endWork_tm]
    · nofun
    · exact managementIdle_of_same rfl rfl idle
  unfold copyAccess
  split
  · rename_i work
    have reads {sid : SetId} {words : List Word} : (Work.select sid words).writeRun = e.work.writeRun := by
      rw [work]; rfl
    dsimp only
    split
    · exact endWork_guarded _ _ _ idle guarded
    all_goals
      split
      · exact finished _ _
      · exact continueWork_guarded still idle reads nofun nofun guarded
  all_goals exact h

theorem writeAccess_guarded : WritesGuarded (writeAccess s a e) := by
  unfold writeAccess
  split
  · rename_i start values pos work
    have stored := storeWord_guarded a.index (freshWord (values.getD pos 0)) h
    have idle : managementIdle (endAccess (s.updTm fun t => storeWord t a.index (freshWord (values.getD pos 0)))).tm :=
      endAccess_idle (waitMgmt_of_access access who h)
    dsimp only
    split
    · exact endWork_guarded _ _ _ idle (endAccess_guarded stored)
    · rename_i more
      refine continueWork_guarded ?_ idle (by rw [work]; rfl) (fun r hr => ?_) (fun _ => nofun)
        (endAccess_guarded stored)
      · rw [endAccess_touches _ .mg (by decide)]; exact exec
      · cases hr; dsimp only; omega
  all_goals exact h

theorem byteAccess_guarded : WritesGuarded (byteAccess s a e) := by
  obtain ⟨guarded, idle, still⟩ := ended_read_guarded access who exec h
  unfold byteAccess
  split
  · rename_i start half bytes pos work
    dsimp only
    split
    · exact endWork_guarded _ _ _ idle guarded
    all_goals
      rename_i v _
      have stored := storeWord_guarded a.index (freshWord (mergeHalf half (byteAt bytes pos) v))
        (noteRead_guarded .management a.index h)
      have idle := endAccess_idle (s := (noteRead s .management a.index).updTm fun t =>
          storeWord t a.index (freshWord (mergeHalf half (byteAt bytes pos) v)))
        ((noteRead_waitMgmt s _ _).trans (waitMgmt_of_access access who h))
      split
      · exact endWork_guarded _ _ _ idle (endAccess_guarded stored)
      · rename_i more
        refine continueWork_guarded ?_ idle (by rw [work]; rfl) (fun r hr => ?_) (fun _ => nofun)
          (endAccess_guarded stored)
        · rw [endAccess_touches _ .mg (by decide), State.updTm_mg, noteRead_touches _ _ _ .mg (by decide)]; exact exec
        · cases hr; dsimp only; omega
  all_goals exact h

end

theorem endVisit_guarded (h : WritesGuarded s) : WritesGuarded (endVisit s) := by
  unfold endVisit
  split
  · split
    · refine endAccess_guarded ?_
      unfold visitWord
      dsimp only
      have moved {t : State} (ht : WritesGuarded t) :
          WritesGuarded (t.updTm fun t => { t with scrubPos := t.scrubPos + 1 }) :=
        writesGuarded_quiet (updTm_touches t _) (by decide) (.of_access rfl rfl rfl rfl rfl rfl) ht
      have noted := noteRead_guarded .scrubber (‹Access›.index) h
      split
      · exact moved (storeWord_guarded _ _ noted)
      all_goals exact moved noted
    · exact h
  · exact h

/-- R154: a cut access leaves maps and waiting requests, and no access. -/
theorem endCutAccess_kept (s : State) : (endCutAccess s).tm.map0 = s.tm.map0 ∧ (endCutAccess s).tm.map1 = s.tm.map1
    ∧ (endCutAccess s).tm.active = s.tm.active ∧ (endCutAccess s).tm.waitMgmt = s.tm.waitMgmt
    ∧ (endCutAccess s).tm.access = .none := by
  unfold endCutAccess
  split
  · exact ⟨rfl, rfl, rfl, rfl, ‹_›⟩
  · unfold cutAccess
    split
    · dsimp only [State.updTm_tm]
      split <;> exact ⟨rfl, rfl, rfl, rfl, rfl⟩
    · exact ⟨rfl, rfl, rfl, rfl, rfl⟩

theorem assertReset_guarded (h : WritesGuarded s) : WritesGuarded (assertReset s) := by
  obtain ⟨map0, map1, active, waits, access⟩ := endCutAccess_kept (cutPort (cutPort s .U) .D)
  refine writesGuarded_kept (assertReset_touches s) (by decide) map0 map1 active (fun exec guarded => ?_) h
  have access : (assertReset s).tm.access = .none := access
  have waits : (assertReset s).tm.waitMgmt = s.tm.waitMgmt := waits
  refine ⟨fun a ha => ?_, fun a ha => ?_, waits ▸ guarded.waits, fun a ha => ?_, waits ▸ guarded.waiting⟩
  all_goals rw [access] at ha; cases ha

/-! ### Resets -/

/-- R21: after a reset of the blocks along the line nothing needs a set, and no request is in execution. -/
theorem writesGuarded_reset {t : State} (mode : t.ct.mode = .stop) (ring : t.ring = ringAtReset)
    (opt : t.opt = Optimizer.atReset) (exec : t.mg.exec = .none) (idle : managementIdle t.tm) : WritesGuarded t := by
  refine (writesGuarded_iff t).2 ⟨fun needs => ?_, by rw [exec]; exact (accessGuarded_none_iff _).2 idle,
    fun e he => by rw [exec] at he; cases he⟩
  obtain run | ⟨k, run⟩ | waiting | atWork := needs
  · have run : t.ct.mode = .run := run
    rw [mode] at run; cases run
  · have run : t.ring[k].origin = .run := run
    rw [ring] at run
    have empty : (State.reset.ring[k]).origin = .run := run
    rw [reset_slot] at empty; cases empty
  · have waiting : t.opt.queue ≠ [] := waiting
    rw [opt] at waiting; exact absurd rfl waiting
  · have atWork : t.opt.job.map _ ≠ .none := atWork
    rw [opt] at atWork; exact absurd rfl atWork

theorem softReset_guarded (p : Port) (f : Frame) (idle : managementIdle s.tm) :
    WritesGuarded (softResetRequest s p f) := by
  have withdrawn : managementIdle (softResetMemory s.tm) :=
    managementIdle_of_same (t := { s.tm with access := disown .optimizer (disown .commit s.tm.access) }) rfl
      (idle.2.symm : _ = s.tm.waitMgmt) ((accessGuarded_none_iff _).1
        (((QuietMemory.disowned s.tm .commit).trans (.disowned { s.tm with access := disown .commit s.tm.access }
          .optimizer)).guarded .none ((accessGuarded_none_iff _).2 idle)))
  have reset : WritesGuarded (softReset s) := writesGuarded_reset rfl rfl rfl rfl withdrawn
  exact reply_guarded p f _ _ rfl withdrawn reset

theorem powerOn_guarded (s : State) : WritesGuarded (powerOn s) :=
  writesGuarded_reset rfl rfl rfl rfl ⟨nofun, rfl⟩

theorem releaseReset_guarded (s : State) : WritesGuarded (releaseReset s) :=
  writesGuarded_reset rfl rfl rfl rfl ⟨nofun, rfl⟩

theorem endSweep_guarded (h : WritesGuarded s) : WritesGuarded (endSweep s) := by
  unfold endSweep
  split
  · refine writesGuarded_of_parts (s := s) (fun needs => ?_) id
      (accessGuarded_of_same (t := s.tm) rfl rfl ((writesGuarded_iff s).1 h).2.1) (fun e he r hr => ?_) h
    · obtain run | rest := needs
      · cases run
      · exact .inr rest
    · exact ((writesGuarded_iff s).1 h).2.2 e he r hr
  · exact h

theorem effect_guarded (c : Instr) (h : WritesGuarded s) : WritesGuarded (effect c s) := by
  by_cases quiet : c ∉ managing
  · refine writesGuarded_of_quiet h ((effect_along c s).keeps (keptQuiet_step quiet)
      ⟨.refl _, rfl, ((writesGuarded_iff s).1 h).1, fun j hj => .inr ?_⟩)
    obtain ⟨job, atWork, rfl⟩ := Option.map_eq_some_iff.1 hj
    unfold latchedSet
    rw [atWork]; rfl
  · simp only [managing, List.mem_cons, List.not_mem_nil, or_false, not_not] at quiet
    obtain rfl | rfl | rfl | rfl | rfl | rfl | rfl | rfl | rfl | rfl | rfl | rfl | rfl | rfl | rfl := quiet
    · exact takeRequest_guarded (fun _ p f exec idle ht => tableRead_guarded p f exec idle ht) h
    · exact takeRequest_guarded (fun _ p f exec idle ht => tableWrite_guarded p f exec idle ht) h
    · exact takeRequest_guarded (fun _ p f exec idle ht => tableWriteByte_guarded p f exec idle ht) h
    · exact mgmtAccess_keeps (fun a e access who exec => readAccess_guarded access who exec h) h
    · exact mgmtAccess_keeps (fun a e access who exec => writeAccess_guarded access who exec h) h
    · exact mgmtAccess_keeps (fun a e access who exec => byteAccess_guarded access who exec h) h
    · exact takeRequest_guarded (fun _ p f exec idle ht => mapWrite_guarded p f exec idle ht) h
    · exact takeRequest_guarded (fun _ p f exec idle ht => setSelect_guarded p f exec idle ht) h
    · exact mgmtAccess_keeps (fun a e access who exec => copyAccess_guarded access who exec h) h
    · exact endVisit_guarded h
    · exact takeRequest_guarded (fun _ p f _ idle _ => softReset_guarded p f idle) h
    · exact powerOn_guarded s
    · exact endSweep_guarded h
    · exact assertReset_guarded h
    · exact h

/-! ### Values in pages in use (R143) -/

theorem page_of_run {start count i : Nat} (inPage : start % 256 + count ≤ 256) (low : start ≤ i)
    (high : i < start + count) : i / 256 = start / 256 := by omega

/-- R143: no access stores into a page in use but the value that is read there. -/
theorem stores_keeps_value {words : Sparse StoredWord} (h : WritesGuarded s)
    (canonical : sparseWf blankWord s.tm.words = true) (stores : Stores s words) {i : Nat}
    (inUse : pageInUse s (i / 256) = true) (readable : popCount (storedAt s.tm i).changed ≤ 2) :
    (sparseGet blankWord words i).written = (storedAt s.tm i).written := by
  obtain ⟨_, guarded, runs⟩ := (writesGuarded_iff s).1 h
  obtain ⟨a, access, w, rfl, origin⟩ := stores
  rw [sparseGet_set blankWord canonical]
  split
  · rename_i same
    subst same
    have outside (mine : a.who = .management) (writes : writing s.mg.exec) : pageInUse s (a.index / 256) = false := by
      obtain ⟨e, exec, run⟩ := writes
      obtain ⟨r, hr⟩ := Option.ne_none_iff_exists'.1 run
      obtain ⟨low, high⟩ := (guarded.access a access).1 mine e exec r hr
      obtain ⟨inPage, free⟩ := runs e exec r hr
      rw [page_of_run inPage low high]; exact free
    obtain ⟨mine, writes⟩ | writes | ⟨v, single, rfl⟩ := origin
    · rw [outside mine writes] at inUse; cases inUse
    · rw [outside (guarded.owned a access writes) ((guarded.access a access).2 writes)] at inUse; cases inUse
    · unfold checkAt checkWord at single
      split at single
      · cases single
      · cases single; rfl
      · cases single
      · rename_i zero one two
        have : popCount (storedAt s.tm a.index).changed = 0 ∨ popCount (storedAt s.tm a.index).changed = 1
          ∨ popCount (storedAt s.tm a.index).changed = 2 := by omega
        obtain h | h | h := this
        · exact absurd h zero
        · exact absurd h one
        · exact absurd h two
  · rfl

/-- Settles O17: the guards command by command, and each store of a word judged by them. -/
theorem stepKeepsPagesInUse : Obligations.StepKeepsPagesInUse := by
  intro s t h hstep
  refine ⟨step_keeps (I := WritesGuarded) (fun _ _ h => h) (fun c _ h => effect_guarded c h)
    (fun s _ => releaseReset_guarded s) h hstep, fun notSweep canonical i inUse readable => ?_⟩
  cases waiting : s.pending with
  | nil => rw [stepRunsTheFrontCommand.2 s waiting] at hstep; cases hstep; rfl
  | cons c rest =>
    rw [stepRunsTheFrontCommand.1 s c rest waiting] at hstep
    have other : c ≠ .sweepComplete := fun same => notSweep (by rw [waiting, same]; rfl)
    unfold storedAt
    obtain rfl | rfl | ⟨_, rfl⟩ := exec_cases hstep
    · rfl
    · obtain same | ⟨-, stores⟩ | ⟨sweep, -⟩ := effect_words c { s with pending := rest }
      · rw [same]
      · exact stores_keeps_value (s := { s with pending := rest }) h canonical stores inUse readable
      · exact absurd sweep other
    · rfl

end
end Sys2Proof.Proofs
end

section
/-! SUPPORT. The chain: the counts of the encoder, the advance and the saws (chapters 1 and 5.6). -/

namespace Sys2Proof.Proofs

open Sys2Proof Sys2Proof.Machine

variable {s : State}

/-! ### Counts (R1, R2) -/

/-- R1: a count from P on hands no switch point. -/
theorem handSwitchByCount_from_step (h : s.settings.countsPerStep ≤ s.ct.c) : handSwitchByCount s = s :=
  if_neg fun ⟨_, hc, _⟩ => by omega

theorem handSwitchByCount_settings (s : State) : (handSwitchByCount s).settings = s.settings := by
  unfold handSwitchByCount; split <;> rfl

theorem handSwitchByCount_count (s : State) : (handSwitchByCount s).ct.c = s.ct.c := by
  unfold handSwitchByCount; split <;> rfl

/-- R2: a count to P + tol or above is a missing index. -/
theorem countEvent_missing (h : s.settings.countsPerStep + s.settings.tol ≤ s.ct.c + 1) :
    countEvent s = missingIndex (s.updCt fun c => { c with c := c.c + 1 }) := by
  have hand : handSwitchByCount (s.updCt fun c => { c with c := c.c + 1 })
      = s.updCt fun c => { c with c := c.c + 1 } :=
    handSwitchByCount_from_step (by simp only [State.updCt_settings, State.updCt_ct]; omega)
  rw [countEvent, hand]
  exact if_pos h

/-- R1: a count below P + tol only counts, and may hand a switch point. -/
theorem countEvent_counts (h : s.ct.c + 1 < s.settings.countsPerStep + s.settings.tol) :
    countEvent s = handSwitchByCount (s.updCt fun c => { c with c := c.c + 1 }) := by
  rw [countEvent]
  refine if_neg ?_
  rw [handSwitchByCount_settings, handSwitchByCount_count]
  exact Nat.not_le.2 h

/-- Settles O18: P + tol splits the counts; the missing index is that same count event. -/
theorem countEventsCountOrSynthesizeTheAdvance : Obligations.CountEventsCountOrSynthesizeTheAdvance := by
  intro s up
  refine ⟨fun missing => ⟨?_, ?_⟩, fun below => ?_⟩
  · rw [exec_released _ up, effect, countEvent_missing missing]; rfl
  · rw [exec_released _ up, exec_released _ up, effect, effect, takeMissing, if_pos missing]
  · rw [exec_released _ up, effect, countEvent_counts below]; rfl

/-! ### The advance (R5 to R9) -/

/-- R6: the record of a new lug, its condition as a proposition. -/
theorem newSlot_eq (s : State) (seq : LugSeq) :
    newSlot s seq = { Slot.empty seq with
      origin := s.ct.mode
      board := if s.ct.mode = .run ∧ (s.lu.u.link = .down ∨ s.lu.u.errState = .failed) then .unscanned else .none
      cause := if s.ct.mode = .run ∧ (s.lu.u.link = .down ∨ s.lu.u.errState = .failed) then .some .unscanned
        else .none } := by
  simp only [newSlot, uUnusable, Bool.and_eq_true, Bool.or_eq_true, beq_iff_eq]

/-- R28: freeing a slot's buffer and then writing the slot leaves the written record and the longer list. -/
theorem setSlot_freeBuffer (s : State) (lug : LugSeq) (sl : Slot) :
    setSlot (freeBuffer s lug) lug sl = { setSlot s lug sl with
      sa := { s.sa with freeList := s.sa.freeList ++ (slotAt s lug).buffer.toList } } := by
  rw [freeBuffer_eq]
  show ({ setSlot (setSlot s lug _) lug sl with sa := _ } : State) = _
  rw [setSlot_setSlot]

theorem handArrivals_switches (g : Settings) (seq : LugSeq) (handed : Bool) (h : HandedOver) :
    handArrivals g seq (!handed) h = { h with
      deadlines := h.deadlines ++ [lugAt seq (g.dScanwin + 1)]
      locks := h.locks ++ [lugAt seq g.dLock]
      optLocks := h.optLocks ++ [lugAt seq g.dLock]
      switches := h.switches ++ (if handed then [] else [lugAt seq g.dTrim])
      sorts := h.sorts ++ [lugAt seq g.dSort] } := by
  cases handed <;> rfl

/-- R5 to R9: the advance, its LUG frame and its arrivals written out. -/
theorem advance_eq (s : State) (synthesized : Bool) :
    let seq := s.ct.seq + 1
    let moved : State := { setSlot (s.updCt fun c => { c with c := 0, seq := seq, switchHanded := false }) seq
        (newSlot s seq) with
      sa := { s.sa with freeList := s.sa.freeList ++ (slotAt s seq).buffer.toList } }
    advance s synthesized = (enqueue moved .U (.frame 0 (ownFrame s 12 31 seq
        (lugBody s synthesized (newSlot s seq))))).updHanded
      fun _ => handArrivals s.settings seq (!s.ct.switchHanded) s.handed := by
  intro seq moved
  have sent (x : TxItem) := enqueue_touches moved .U x
  have settings (x : TxItem) : (enqueue moved .U x).settings = s.settings := sent x .settings (by decide)
  have handed (x : TxItem) : (enqueue moved .U x).handed = s.handed := sent x .handed (by decide)
  simp only [advance, State.updHanded]
  rw [setSlot_freeBuffer]
  show ({ enqueue moved .U _ with
    handed := handArrivals (enqueue moved .U _).settings _ _ (enqueue moved .U _).handed } : State) = _
  rw [settings, handed]
  rfl

/-- Settles O20: `advance_eq`, with the record and the arrivals written out. -/
theorem advanceBringsTheNextLug : Obligations.AdvanceBringsTheNextLug := by
  intro s synthesized _ g seq lost slot moved t
  have record : newSlot s seq = slot := newSlot_eq s seq
  have written : t = { enqueue moved .U (.frame 0 (makeFrame 12 g.ownAddress 31 seq
      [byte (modeCode s.ct.mode), if synthesized then 1 else 0, byte (boardCode slot.board)])) with
        handed := handArrivals g seq (!s.ct.switchHanded) s.handed } := by
    rw [← record]
    exact (advance_eq s synthesized).trans (by rw [record]; rfl)
  have atMoved (l : LugSeq) : slotAt t l = slotAt moved l := by
    rw [written]; exact slotAt_enqueue moved _ _ l
  refine ⟨written.trans (by rw [handArrivals_switches]; rfl), ?_, fun l other => ?_, advance_touches s synthesized⟩
  · rw [atMoved]; exact slotAt_setSlot_same _ _ _
  · rw [atMoved]; exact slotAt_setSlot_other _ _ other

/-! ### The saws (R96, R97) -/

theorem takeSwitch_cons {lug : LugSeq} {rest : List LugSeq} (handed : s.handed.switches = lug :: rest) :
    takeSwitch s = switchArrives (s.updHanded fun h => { h with switches := rest }) lug := by
  rw [takeSwitch, handed]

theorem flying_iff (s : State) (lug : LugSeq) :
    s.cu.inFlight.any (fun f => f.lug == lug) = true ↔ ∃ fl ∈ s.cu.inFlight, fl.lug = lug := by
  cases s.cu.inFlight <;> simp

/-- Settles O42: a switch point is held exactly while its lug's commit is in flight; else the pattern is the
committed decision's, or none. -/
theorem switchPointsSetTheSaws : Obligations.SwitchPointsSetTheSaws := by
  intro s lug rest up handed s1 flying sets
  have arrives : exec .sawSwitchPoint s = .next (switchArrives s1 lug) := by
    rw [exec_released _ up, effect, takeSwitch_cons handed]; rfl
  have landed (free : ¬ flying) : exec .sawSwitchPoint s = .next { s1 with
      cu := { s.cu with
        heldSwitch := .none, source := .some lug, saws := (slotAt s lug).committed.bind (·.saws) } } := by
    rw [arrives, switchArrives, if_neg fun h => free ((flying_iff s lug).1 h)]; rfl
  refine ⟨fun held => ?_, fun free none => ?_, fun free c some => ?_⟩
  · rw [arrives, switchArrives, if_pos ((flying_iff s lug).2 held)]; rfl
  · exact (landed free).trans (by rw [none]; rfl)
  · exact (landed free).trans (by rw [some]; rfl)

end Sys2Proof.Proofs
end

section
/-! SUPPORT. Scan assembly (chapter 2): openings, profiles cell by cell, closes, deadlines and lost frames. -/

namespace Sys2Proof.Proofs

open Sys2Proof Sys2Proof.Machine

variable {s : State}

/-! ### Sets of heads (R26, R36) -/

theorem setIfInBounds_fin {α : Type} {n : Nat} (v : Vector α n) (k : Fin n) (x : α) :
    v.setIfInBounds k.val x = v.set k.val x := by
  ext i; simp [Vector.getElem_setIfInBounds, Vector.getElem_set]

/-- A head's bit among the eight. -/
theorem headBit_getLsbD (h : Nat) (k : Fin 8) : (headBit h).getLsbD k.val = decide (k.val = h) := by
  have := k.isLt
  rw [headBit, BitVec.getLsbD_shiftLeft, BitVec.getLsbD_one]
  simp only [this, decide_true, Bool.true_and]
  rw [Bool.eq_iff_iff]
  simp only [Bool.and_eq_true, Bool.not_eq_true', decide_eq_false_iff_not, decide_eq_true_eq]
  omega

/-- R26: setting the bits of the heads of a list that have a property. -/
theorem foldl_headBits_getLsbD (flag : Nat → Bool) (k : Fin 8) : ∀ (l : List Nat) (acc : BitVec 8),
    (l.foldl (fun acc h => if flag h then acc ||| headBit h else acc) acc).getLsbD k.val
      = (acc.getLsbD k.val || (decide (k.val ∈ l) && flag k.val))
  | [], acc => by simp
  | h :: l, acc => by
    rw [List.foldl_cons, foldl_headBits_getLsbD flag k l]
    by_cases at_k : k.val = h
    · subst at_k
      cases set : flag k.val with
      | false => simp
      | true => rw [if_pos rfl, BitVec.getLsbD_or, headBit_getLsbD]; simp
    · cases set : flag h with
      | false => simp [at_k]
      | true => rw [if_pos rfl, BitVec.getLsbD_or, headBit_getLsbD]; simp [at_k]

theorem participatingHeads_getLsbD (c : HeadCache) (h : Fin 8) :
    (participatingHeads c).getLsbD h.val = c.heads[h].participating := by
  have set := foldl_headBits_getLsbD (fun h => (headAt c h).participating) h (List.range 8) 0
  rw [headAt_fin, decide_eq_true (List.mem_range.2 h.isLt)] at set
  exact set.trans (by simp)

/-- R36: no expected head is left outside the closed set exactly when every expected head has closed. -/
theorem closed_iff (expected closed : BitVec 8) : expected &&& ~~~closed = 0 ↔
    ∀ k : Fin 8, expected.getLsbD k.val = true → closed.getLsbD k.val = true := by
  constructor
  · intro none k set
    have bit : (expected &&& ~~~closed).getLsbD k.val = (0 : BitVec 8).getLsbD k.val := by rw [none]
    rw [BitVec.getLsbD_and, BitVec.getLsbD_not, set] at bit
    simpa using bit
  · intro all
    refine BitVec.eq_of_getLsbD_eq fun i hi => ?_
    rw [BitVec.getLsbD_and, BitVec.getLsbD_not]
    cases set : expected.getLsbD i with
    | false => simp
    | true => simp [all ⟨i, hi⟩ set]

/-! ### The end of a scan (R37, R38) -/

/-- R37, R38: the end of a scan, whole or partial, by the partial policy in force. -/
def scanEnded (s : State) (lug : LugSeq) (whole : Bool) : State :=
  let sl := slotAt s lug
  let left : Slot := if whole then { sl with scan := .some .complete }
    else { sl with scan := .some .partialScan, partialFlag := true }
  if whole = false ∧ s.settings.policy = .recycle then
    setSlot s lug { left with
      cause := .some .partialScan
      optState := if sl.optState = .none then .skipped else sl.optState }
  else if sl.optState = .none then offerLug (setSlot s lug left) lug
  else setSlot s lug left

theorem endPartial_eq (s : State) (lug : LugSeq) : endPartial s lug = scanEnded s lug false := by
  unfold endPartial scanEnded
  cases s.settings.policy with
  | optimize => rfl
  | recycle => exact updSlot_updSlot s lug _ _

theorem completeScan_eq (s : State) (lug : LugSeq) :
    completeScan s lug = scanEnded s lug (!(slotAt s lug).loss) := by
  unfold completeScan
  cases lossy : (slotAt s lug).loss with
  | true => exact endPartial_eq s lug
  | false => rfl

/-- R26: a scan that closes at once, its LOSS flag told. -/
theorem scanEnded_cases (s : State) (lug : LugSeq) (n : Nat) :
    scanEnded s lug (!decide (0 < n)) =
      (let sl := slotAt s lug
       if 0 < n then
         if s.settings.policy = .recycle then
           setSlot s lug { sl with
             scan := .some .partialScan, partialFlag := true, cause := .some .partialScan
             optState := if sl.optState = .none then .skipped else sl.optState }
         else if sl.optState = .none then
           offerLug (setSlot s lug { sl with scan := .some .partialScan, partialFlag := true }) lug
         else setSlot s lug { sl with scan := .some .partialScan, partialFlag := true }
       else if sl.optState = .none then offerLug (setSlot s lug { sl with scan := .some .complete }) lug
       else setSlot s lug { sl with scan := .some .complete }) := by
  by_cases run : 0 < n
  · simp only [scanEnded, run, decide_true, Bool.not_true, true_and, if_true, Bool.false_eq_true, if_false]
  · simp only [scanEnded, run, decide_false, Bool.not_false, Bool.true_eq_false, false_and, if_true, if_false]

theorem completeIfClosed_all {lug : LugSeq} (all : (slotAt s lug).expected &&& ~~~(slotAt s lug).closed = 0) :
    completeIfClosed s lug = scanEnded s lug (!(slotAt s lug).loss) := (if_pos all).trans (completeScan_eq s lug)

theorem completeIfClosed_waits {lug : LugSeq} (left : ¬ (slotAt s lug).expected &&& ~~~(slotAt s lug).closed = 0) :
    completeIfClosed s lug = s := if_neg left

/-! ### An accepted BOARD-OPEN (R26, R28, R34) -/

/-- R26: the board fields of an accepted BOARD-OPEN. -/
def openedSlot (s : State) (raw width b : Nat) (sl : Slot) : Slot :=
  { sl with
    board := .present, len := min raw 264, width := width, wc := widthClass s.sa.cache width
    expected := participatingHeads s.sa.cache, closed := 0, scan := .some .opened
    loss := decide (0 < s.sa.lossRun), partialFlag := false, buffer := .some b }

/-- R26: the state an accepted BOARD-OPEN leaves before the scan may end at once. -/
def boardOpened (s : State) (lug : LugSeq) (raw width b : Nat) (rest : List Nat) : State :=
  (updSlot s lug (openedSlot s raw width b)).updSa fun sa =>
    clearCursors { sa with freeList := rest, buffers := sa.buffers.setIfInBounds b [] } lug

theorem slotAt_boardOpened (s : State) (lug : LugSeq) (raw width b : Nat) (rest : List Nat) :
    slotAt (boardOpened s lug raw width b rest) lug = openedSlot s raw width b (slotAt s lug) :=
  slotAt_updSlot_same s lug _

theorem boardOpened_touches (s : State) (lug : LugSeq) (raw width b : Nat) (rest : List Nat) :
    unchangedBut [.ring, .sa] s (boardOpened s lug raw width b rest) :=
  ((updSlot_touches s lug _).mono (by decide)).next (updSa_touches _ _) (by decide)

/-- R26: with heads expected the scan stays open; with none it ends at once. -/
theorem acceptOpen_eq (s : State) (lug : LugSeq) (raw width b : Nat) (rest : List Nat) :
    let t := boardOpened s lug raw width b rest
    acceptOpen s lug raw width b rest =
      if participatingHeads s.sa.cache = 0 then scanEnded t lug (!decide (0 < s.sa.lossRun)) else t := by
  intro t
  have all : ((slotAt t lug).expected &&& ~~~(slotAt t lug).closed = 0) = (participatingHeads s.sa.cache = 0) := by
    rw [slotAt_boardOpened]
    show (participatingHeads s.sa.cache &&& ~~~0#8 = 0#8) = _
    rw [BitVec.not_zero, BitVec.and_allOnes]; rfl
  show completeIfClosed t lug = _
  split
  · rename_i none
    rw [completeIfClosed_all (all.symm ▸ none), slotAt_boardOpened]; rfl
  · rename_i some
    exact completeIfClosed_waits (all.symm ▸ some)

theorem openBoard_accepted {f : Frame} {b : Nat} {free : List Nat} (long : 5 ≤ f.body.length)
    (inTime : offset s f.tag ≤ s.settings.dScanwin) (run : (slotAt s f.tag).origin = .run)
    (unopened : (slotAt s f.tag).board = .none) (lead : (headAt s.sa.cache (num8 f.body 0)).lead = true)
    (some : s.sa.freeList = b :: free) :
    openBoard s f = acceptOpen s f.tag (num16 f.body 1) (num16 f.body 3) b free :=
  (if_neg (Nat.not_lt.2 long)).trans <| (if_neg (Nat.not_lt.2 inTime)).trans <|
    (if_neg (not_not_intro run)).trans <| (if_neg (not_not_intro unopened)).trans <|
      (if_neg (by simp [lead])).trans (by rw [some])

/-- Settles O22: past the conditions of Table 2-2 the frame is accepted, and the scan ends at once exactly when no
head is expected. -/
theorem boardOpenAccepted : Obligations.BoardOpenAccepted := by
  refine ⟨participatingHeads_getLsbD, ?_⟩
  intro s p f rest h b free waiting inTime run unopened byHead lead some endsTake
  have byLead : (headAt (scanTaken s rest).sa.cache (num8 f.body 0)).lead = true := by
    rw [byHead]; exact (congrArg HeadEntry.lead (headAt_fin s.sa.cache h)).trans lead
  have accepted : exec .boardOpen s = .next (endScanTake
      (acceptOpen (scanTaken s rest) f.tag (num16 f.body 1) (num16 f.body 3) b.val free)) := by
    rw [exec_boardOpen, takeScan_waiting openBoard waiting,
      openBoard_accepted (s := scanTaken s rest) waiting.2.2.2 inTime run unopened byLead some]
  have opened := acceptOpen_eq (scanTaken s rest) f.tag (num16 f.body 1) (num16 f.body 3) b.val free
  refine ⟨boardOpened (scanTaken s rest) f.tag (num16 f.body 1) (num16 f.body 3) b.val free, fun heads => ?_,
    fun none => ?_, ?_, fun l other => slotAt_updSlot_other _ _ other, rfl, fun c => ?_, fun k => ?_, rfl, rfl, rfl,
    rfl, ?_⟩
  · rw [accepted, opened, if_neg (c := participatingHeads (scanTaken s rest).sa.cache = 0) heads]; rfl
  · rw [accepted, opened, if_pos (c := participatingHeads (scanTaken s rest).sa.cache = 0) none, scanEnded_cases]; rfl
  · rw [slotAt_boardOpened, openedSlot, widthClass, List.countP_eq_length_filter]; rfl
  · show (s.sa.buffers.setIfInBounds b.val [])[c.val] = _
    rw [Vector.getElem_setIfInBounds]
    simp [Fin.ext_iff, eq_comm]
  · exact getElem_vecMap _ s.sa.cursors k
  · have taken : unchangedBut [.lu] s (scanTaken s rest) := updLu_touches s fun l => { l with scanQ := rest }
    exact (taken.mono (by decide)).next (boardOpened_touches _ _ _ _ _ _) (by decide)

/-! ### One cell (R29, R32, R33) -/

/-- R32: where the cursor moves, both directions told apart first. -/
theorem nextPosition_eq (c : Cursor) (z st : Nat) : nextPosition c z st =
    if c.mirrored then
      if c.s1 < st then (if c.z2 < z then .none else .some (z, st - 1))
      else if c.z2 < z + 1 then .none else .some (z + 1, c.s2)
    else
      if st < c.s2 then (if c.z2 < z then .none else .some (z, st + 1))
      else if c.z2 < z + 1 then .none else .some (z + 1, c.s1) := by
  unfold nextPosition
  cases c.mirrored with
  | true =>
    by_cases low : c.s1 < st
    · simp [low, Nat.not_le.2 low]
    · simp [low, Nat.not_lt.1 low]
  | false =>
    by_cases low : st < c.s2
    · simp [low, Nat.not_le.2 low]
    · simp [low, Nat.not_lt.1 low]

/-- R29: a merge changes the class of its cell alone, to the larger of the two. -/
theorem sparseGet_mergeCell {cells : Sparse (BitVec 4)} (canonical : sparseWf 0 cells = true) (z st : Nat)
    (cls : BitVec 4) (k : Nat) : (sparseGet 0 (mergeCell cells z st cls) k).toNat =
      if k = z * 264 + st then max (sparseGet 0 cells k).toNat cls.toNat else (sparseGet 0 cells k).toNat := by
  rw [mergeCell, sparseGet_set 0 canonical]
  unfold cellKey
  split
  · rename_i here
    rw [here]
    split <;> omega
  · rfl

theorem covers_iff (e : HeadEntry) (z : Nat) : e.covers z = true ↔ e.firstZone ≤ z ∧ z ≤ e.lastZone := by
  rw [HeadEntry.covers, Bool.and_eq_true, decide_eq_true_eq, decide_eq_true_eq]

/-- A class of a head's map, read as its list has it. -/
theorem classMap_getD (v : Vector (BitVec 4) 64) (k : Nat) : (v[k]?).getD 0 = v.toList.getD k 0 := by
  rw [List.getD_eq_getElem?_getD, Vector.getElem?_toList]

section
variable {w : Filling} {z st : Nat} (e : HeadEntry) (raw : Byte) (position : w.cursor.position = .some (z, st))
include position

theorem fillCell_moves : (fillCell e w raw).cursor = { w.cursor with position := nextPosition w.cursor z st } := by
  unfold fillCell
  rw [position]
  dsimp only
  split
  · rfl
  · split <;> rfl

theorem fillCell_excess : (fillCell e w raw).excess = w.excess := by
  unfold fillCell
  rw [position]
  dsimp only
  split
  · rfl
  · split <;> rfl

theorem fillCell_bad : (fillCell e w raw).bad = if 63 < raw.toNat then w.bad + 1 else w.bad := by
  unfold fillCell
  rw [position]
  dsimp only
  split
  · rfl
  · split <;> rfl

theorem fillCell_cells : (fillCell e w raw).cells =
    if raw.toNat ≤ 63 ∧ e.firstZone ≤ z ∧ z ≤ e.lastZone then
      mergeCell w.cells z st (e.classMap.toList.getD raw.toNat 0)
    else w.cells := by
  unfold fillCell
  rw [position]
  dsimp only
  split
  · rename_i bad
    rw [if_neg fun h => absurd h.1 (Nat.not_le.2 bad)]
  · rename_i good
    split
    · rename_i covered
      rw [if_pos ⟨Nat.not_lt.1 good, (covers_iff e z).1 covered⟩, classMap_getD]
    · rename_i outside
      rw [if_neg fun h => outside ((covers_iff e z).2 h.2)]

end

theorem fillCell_exhausted {w : Filling} (e : HeadEntry) (raw : Byte) (exhausted : w.cursor.position = .none) :
    fillCell e w raw = { w with excess := w.excess + 1 } := by
  unfold fillCell; rw [exhausted]

/-- Settles O24: what a cell leaves, field by field. -/
theorem eachCellGoesToTheCursorsPlace : Obligations.EachCellGoesToTheCursorsPlace := by
  intro e w raw canonical t
  refine ⟨fillCell_exhausted e raw, fun z st position => ⟨fillCell_excess e raw position, fillCell_bad e raw position,
    fun k => ?_, fillCell_canonical e raw canonical, ?_⟩⟩
  · show (sparseGet 0 (fillCell e w raw).cells k).toNat = _
    rw [fillCell_cells e raw position]
    by_cases merged : raw.toNat ≤ 63 ∧ e.firstZone ≤ z ∧ z ≤ e.lastZone
    · rw [if_pos merged, sparseGet_mergeCell canonical]
      simp only [merged, and_self, and_true]
    · rw [if_neg merged, if_neg fun h => merged h.2]
  · rw [← nextPosition_eq]; exact fillCell_moves e raw position

/-! ### Lost frames (R40) -/

/-- Settles O26: the ring marked slot by slot. -/
theorem scanOverflowMarksEveryOpenScan : Obligations.ScanOverflowMarksEveryOpenScan := by
  intro s n up handed
  refine ⟨_, getElem_vecMap (fun sl : Slot => if sl.scan = .some .opened then { sl with loss := true } else sl) s.ring,
    ?_⟩
  rw [exec_released _ up, effect, takeScanOverflow, handed]
  rfl

end Sys2Proof.Proofs
end

section
/-! SUPPORT. The frames of an open scan: their first checks, the windows their cells fill, and how scans end
(sections 2.5 to 2.7). -/

namespace Sys2Proof.Proofs

open Sys2Proof Sys2Proof.Machine

variable {s : State} {lug : LugSeq} {head : Nat} {k : State → State}

/-! ### The first checks (R30, R36) -/

theorem admitScan_unknown (beyond : s.settings.dSort < offset s lug) :
    admitScan s lug head k = s.updScanCounts fun c => { c with unknownLug := satInc c.unknownLug } := if_pos beyond

section
variable (near : offset s lug ≤ s.settings.dSort)
include near

theorem admitScan_foreign (foreign : (headAt s.sa.cache head).participating = false) :
    admitScan s lug head k = s.updScanCounts fun c => { c with foreignHead := satInc c.foreignHead } :=
  (if_neg (Nat.not_lt.2 near)).trans (if_pos foreign)

variable (takes : (headAt s.sa.cache head).participating = true)
include takes

theorem admitScan_noBoard (without : (slotAt s lug).board ≠ .present) :
    admitScan s lug head k = s.updScanCounts fun c => { c with noBoard := satInc c.noBoard } :=
  (if_neg (Nat.not_lt.2 near)).trans ((if_neg (by simp [takes])).trans (if_pos without))

variable (present : (slotAt s lug).board = .present)
include present

theorem admitScan_admitted : admitScan s lug head k = k s :=
  (if_neg (Nat.not_lt.2 near)).trans ((if_neg (by simp [takes])).trans (if_neg (not_not_intro present)))

theorem admitProfile_late (ended : (slotAt s lug).scan ≠ .some .opened) : admitProfile s lug head k =
    s.updScanCounts fun c => { c with lateProfile := satInc c.lateProfile } :=
  (admitScan_admitted near takes present).trans (if_pos ended)

theorem admitProfile_opened (opened : (slotAt s lug).scan = .some .opened) : admitProfile s lug head k = k s :=
  (admitScan_admitted near takes present).trans (if_neg (not_not_intro opened))

end

/-- R24, R30, R36: the three frames of an open scan share their length check and first checks. -/
theorem scanFrame_checks (s : State) (f : Frame) {i : Instr} {cls fixed : Nat}
    (member : (i, cls, fixed) ∈ [(Instr.profile, 2, 7), (.profileCont, 3, 1), (.boardClose, 4, 1)]) :
    ∃ (take : State → Frame → State) (judge : State → State), exec i s = taken s (takeScan cls take)
      ∧ ∀ t, take t f = if f.body.length < fixed then
          t.updScanCounts fun c => { c with shortBody := satInc c.shortBody }
        else admitScan t f.tag (num8 f.body 0) judge := by
  simp only [List.mem_cons, Prod.mk.injEq, List.not_mem_nil, or_false] at member
  obtain ⟨rfl, rfl, rfl⟩ | ⟨rfl, rfl, rfl⟩ | ⟨rfl, rfl, rfl⟩ := member
  · exact ⟨takeProfile, _, rfl, fun _ => rfl⟩
  · exact ⟨takeProfileCont, _, rfl, fun _ => rfl⟩
  · exact ⟨takeClose, _, rfl, fun _ => rfl⟩

/-! ### Windows (R31, R35) -/

theorem windowValid_iff (z1 z2 s1 s2 : Nat) :
    windowValid z1 z2 s1 s2 = true ↔ ¬ (z2 < z1 ∨ 7 < z2 ∨ s2 < s1 ∨ 263 < s2) := by
  simp only [windowValid, Bool.and_eq_true, decide_eq_true_eq]
  omega

section
variable {f : Frame} {h : Fin 8} (byHead : num8 f.body 0 = h.val)
include byHead

theorem setWindow_bad
    (bad : ¬ windowValid (num8 f.body 1) (num8 f.body 2) (num16 f.body 3) (num16 f.body 5) = true) :
    setWindow s f = s.updSa fun sa =>
      { sa with
        cursors := sa.cursors.set h .none
        counts := { sa.counts with badWindow := satInc sa.counts.badWindow } } := by
  refine (if_neg bad).trans ?_
  rw [byHead]
  simp only [setIfInBounds_fin]

theorem setWindow_valid (valid : windowValid (num8 f.body 1) (num8 f.body 2) (num16 f.body 3) (num16 f.body 5) = true) :
    setWindow s f = fillCells s h
      { tag := f.tag, z1 := num8 f.body 1, z2 := num8 f.body 2, s1 := num16 f.body 3, s2 := num16 f.body 5,
        mirrored := s.sa.cache.heads[h].mirrored,
        position := .some (num8 f.body 1,
          if s.sa.cache.heads[h].mirrored then num16 f.body 5 else num16 f.body 3) } (f.body.drop 7) := by
  refine (if_pos valid).trans ?_
  rw [byHead, headAt_fin]

theorem cursor_of_head : (s.sa.cursors[num8 f.body 0]?).getD .none = s.sa.cursors[h] := by
  rw [byHead]; simp

theorem continueWindow_without (without : ∀ c ∈ s.sa.cursors[h], c.tag ≠ f.tag) :
    continueWindow s f = s.updScanCounts fun c => { c with noWindow := satInc c.noWindow } := by
  rw [continueWindow, cursor_of_head byHead]
  split
  · rfl
  · rename_i cur at_head
    exact if_neg (without cur at_head)

theorem continueWindow_named {c : Cursor} (at_head : s.sa.cursors[h] = .some c) (named : c.tag = f.tag) :
    continueWindow s f = fillCells s h c (f.body.drop 1) := by
  rw [continueWindow, cursor_of_head byHead, at_head]
  dsimp only
  rw [if_pos named, byHead]

end

/-! ### Cells into the buffer (R32, R33; notes/assumptions/47.md) -/

theorem fillCells_buffered (h : Fin 8) (cur : Cursor) (raws : List Byte) {b : Fin 24}
    (holds : (slotAt s cur.tag).buffer = .some b.val) :
    let w := raws.foldl (fillCell s.sa.cache.heads[h])
      { cursor := cur, cells := s.sa.buffers[b], bad := 0, excess := 0 }
    fillCells s h cur raws = s.updSa fun sa =>
      { sa with
        cursors := sa.cursors.set h (.some w.cursor)
        buffers := sa.buffers.set b w.cells
        counts := { sa.counts with
          badCode := satAdd sa.counts.badCode w.bad
          excessCells := satAdd sa.counts.excessCells w.excess } } := by
  have cells : (s.sa.buffers[b.val]?).getD [] = s.sa.buffers[b] := by simp
  simp only [fillCells, holds, headAt_fin, setIfInBounds_fin, cells]

theorem fillCells_unbuffered (h : Fin 8) (cur : Cursor) (raws : List Byte)
    (without : (slotAt s cur.tag).buffer = .none) :
    let w := raws.foldl (fillCell s.sa.cache.heads[h]) { cursor := cur, cells := [], bad := 0, excess := 0 }
    fillCells s h cur raws = s.updSa fun sa =>
      { sa with
        cursors := sa.cursors.set h (.some w.cursor)
        counts := { sa.counts with
          badCode := satAdd sa.counts.badCode w.bad
          excessCells := satAdd sa.counts.excessCells w.excess } } := by
  simp only [fillCells, without, headAt_fin, setIfInBounds_fin]

/-- Settles O23: the first checks are shared by the three frames; past them a PROFILE's window and a PROFILE-CONT's
cursor decide, and the cells go to the buffer of the slot. -/
theorem scannerFramesAreAdmittedAndFillWindows : Obligations.ScannerFramesAreAdmittedAndFillWindows := by
  refine ⟨?_, ?_, fun s h cur raws => ⟨fun b holds => fillCells_buffered h cur raws holds,
    fillCells_unbuffered h cur raws⟩⟩
  · intro s p f rest i cls fixed member waiting n head takes ends
    obtain ⟨take, judge, meaning, checks⟩ := scanFrame_checks s f member
    have takes_iff : (headAt (scanTaken s rest).sa.cache (num8 f.body 0)).participating = true ↔ takes :=
      headAt_iff s.sa.cache _ HeadEntry.participating rfl
    rw [meaning, takeScan_waiting take waiting, checks]
    refine ⟨fun short => ?_, fun long beyond => ?_, fun long near foreign => ?_, fun long near admitted without => ?_⟩
    · rw [if_pos short]; rfl
    · rw [if_neg (Nat.not_lt.2 long), admitScan_unknown (s := scanTaken s rest) beyond]; rfl
    · have other := Bool.eq_false_iff.2 (mt takes_iff.1 foreign)
      rw [if_neg (Nat.not_lt.2 long), admitScan_foreign (s := scanTaken s rest) near other]; rfl
    · rw [if_neg (Nat.not_lt.2 long),
        admitScan_noBoard (s := scanTaken s rest) near (takes_iff.2 admitted) without]
      rfl
  · intro s p f rest h byHead near participating present n opened z1 z2 s1 s2 mirrored ends
    have takes : (headAt (scanTaken s rest).sa.cache (num8 f.body 0)).participating = true := by
      rw [byHead]; exact (congrArg HeadEntry.participating (headAt_fin s.sa.cache h)).trans participating
    refine ⟨fun waiting => ?_, fun waiting => ?_⟩
    · have meaning : exec .profile s = .next (endScanTake
          (admitProfile (scanTaken s rest) f.tag (num8 f.body 0) fun t => setWindow t f)) :=
        (takeScan_waiting takeProfile waiting).trans
          (congrArg (fun t => Host.Outcome.next (endScanTake t)) (if_neg (Nat.not_lt.2 waiting.2.2.2)))
      refine ⟨fun late => ?_, fun inOpen bad => ?_, fun inOpen valid => ?_⟩
      · rw [meaning, admitProfile_late (s := scanTaken s rest) near takes present late]; rfl
      · have invalid := fun h => (windowValid_iff z1 z2 s1 s2).1 h bad
        rw [meaning, admitProfile_opened (s := scanTaken s rest) near takes present inOpen,
          setWindow_bad byHead invalid]
        rfl
      · rw [meaning, admitProfile_opened (s := scanTaken s rest) near takes present inOpen,
          setWindow_valid byHead ((windowValid_iff z1 z2 s1 s2).2 valid)]
        rfl
    · have meaning : exec .profileCont s = .next (endScanTake
          (admitProfile (scanTaken s rest) f.tag (num8 f.body 0) fun t => continueWindow t f)) :=
        (takeScan_waiting takeProfileCont waiting).trans
          (congrArg (fun t => Host.Outcome.next (endScanTake t)) (if_neg (Nat.not_lt.2 waiting.2.2.2)))
      refine ⟨fun late => ?_, fun inOpen without => ?_, fun c inOpen at_head named => ?_⟩
      · rw [meaning, admitProfile_late (s := scanTaken s rest) near takes present late]; rfl
      · rw [meaning, admitProfile_opened (s := scanTaken s rest) near takes present inOpen,
          continueWindow_without (s := scanTaken s rest) byHead without]
        rfl
      · rw [meaning, admitProfile_opened (s := scanTaken s rest) near takes present inOpen,
          continueWindow_named (s := scanTaken s rest) byHead at_head named]
        rfl

/-! ### Closes and deadlines (R36 to R38) -/

theorem closeHead_late (ended : (slotAt s lug).scan ≠ .some .opened) :
    closeHead s lug head = s.updScanCounts fun c => { c with lateClose := satInc c.lateClose } := if_neg ended

section
variable (opened : (slotAt s lug).scan = .some .opened)
include opened

theorem closeHead_duplicate (again : (slotAt s lug).closed.getLsbD head = true) :
    closeHead s lug head = s.updScanCounts fun c => { c with duplicateClose := satInc c.duplicateClose } :=
  (if_pos opened).trans (if_pos again)

theorem closeHead_joins (first : (slotAt s lug).closed.getLsbD head = false) :
    closeHead s lug head =
      completeIfClosed (updSlot s lug fun sl => { sl with closed := sl.closed ||| headBit head }) lug :=
  (if_pos opened).trans (if_neg (by simp [first]))

end

theorem takeDeadline_cons {rest : List LugSeq} (handed : s.handed.deadlines = lug :: rest) :
    takeDeadline s = scanDeadline (s.updHanded fun h => { h with deadlines := rest }) lug := by
  rw [takeDeadline, handed]

/-- Settles O25: an admitted close is late, a duplicate, or joins, and the joined set may end the scan; a deadline ends
an OPEN scan partial. -/
theorem scansEndAtTheLastCloseOrTheDeadline : Obligations.ScansEndAtTheLastCloseOrTheDeadline := by
  intro s up ended
  refine ⟨?_, ?_⟩
  · intro p f rest h waiting byHead near participating present n sl ends joined
    have takes : (headAt (scanTaken s rest).sa.cache (num8 f.body 0)).participating = true := by
      rw [byHead]; exact (congrArg HeadEntry.participating (headAt_fin s.sa.cache h)).trans participating
    have meaning : exec .boardClose s = .next (endScanTake (closeHead (scanTaken s rest) f.tag h.val)) := by
      refine (takeScan_waiting takeClose waiting).trans (congrArg (fun t => Host.Outcome.next (endScanTake t)) ?_)
      rw [takeClose, if_neg (Nat.not_lt.2 waiting.2.2.2),
        admitScan_admitted (s := scanTaken s rest) near takes present, byHead]
    have joins (opened : sl.scan = .some .opened) (first : sl.closed.getLsbD h.val = false) : exec .boardClose s =
        .next (endScanTake (completeIfClosed (setSlot (scanTaken s rest) f.tag joined) f.tag)) := by
      rw [meaning, closeHead_joins (s := scanTaken s rest) opened first]; rfl
    have closes : slotAt (setSlot (scanTaken s rest) f.tag joined) f.tag = joined := slotAt_setSlot_same _ _ _
    refine ⟨fun late => ?_, fun opened again => ?_, fun opened first missing => ?_, fun opened first all => ?_⟩
    · rw [meaning, closeHead_late (s := scanTaken s rest) late]; rfl
    · rw [meaning, closeHead_duplicate (s := scanTaken s rest) opened again]; rfl
    · obtain ⟨k, expected, absent⟩ := missing
      have waits : ¬ joined.expected &&& ~~~joined.closed = 0 := fun all => by
        rw [(closed_iff _ _).1 all k expected] at absent; cases absent
      rw [joins opened first, completeIfClosed_waits (by rw [closes]; exact waits)]
      rfl
    · refine ⟨_, rfl, ?_⟩
      rw [joins opened first, completeIfClosed_all (by rw [closes]; exact (closed_iff _ _).2 all), closes]
      rfl
  · intro lug rest handed s1
    rw [exec_released _ up, effect, takeDeadline_cons handed]
    exact congrArg Host.Outcome.next (congrArg (fun t => ite _ t _) (endPartial_eq s1 lug))

end Sys2Proof.Proofs
end

section
/-! SUPPORT. The optimizer's queue and jobs: offers, job starts and completions (sections 3.1, 3.2, 3.6). -/

namespace Sys2Proof.Proofs

open Sys2Proof Sys2Proof.Machine

variable {s : State} {lug : LugSeq}

/-! ### Offers (R44 to R46) -/

/-- R45: the conditions that turn an offer away. -/
def offerTurned (s : State) (lug : LugSeq) : Prop :=
  s.settings.dLock ≤ offset s lug ∨ (slotAt s lug).origin ≠ .run ∨ (slotAt s lug).board ≠ .present
    ∨ lug ∈ s.opt.queue ∨ (∃ j ∈ s.opt.job, j.lug = lug) ∨ (slotAt s lug).optState = .decided
    ∨ (slotAt s lug).optState = .skipped

theorem judgeOffer_turned (turned : offerTurned s lug) : judgeOffer s lug = s := by
  unfold judgeOffer
  dsimp only
  obtain late | other | absent | queued | running | decided | skipped := turned
  · rw [if_pos (.inl late)]
  · rw [if_pos (.inr (.inl other))]
  · rw [if_pos (.inr (.inr absent))]
  · rw [if_pos (c := lug ∈ s.opt.queue ∨ isJobLug s lug = true) (.inl queued), ite_self]
  · rw [if_pos (c := lug ∈ s.opt.queue ∨ isJobLug s lug = true) (.inr ((isJobLug_iff s lug).2 running)), ite_self]
  · rw [if_pos (c := (slotAt s lug).optState = .decided ∨ (slotAt s lug).optState = .skipped) (.inl decided), ite_self,
      ite_self]
  · rw [if_pos (c := (slotAt s lug).optState = .decided ∨ (slotAt s lug).optState = .skipped) (.inr skipped), ite_self,
      ite_self]

theorem judgeOffer_taken (taken : ¬ offerTurned s lug) : judgeOffer s lug =
    if 16 ≤ s.opt.queue.length then offerFull (updSlot s lug unFault) lug
    else joinQueue (updSlot s lug unFault) lug := by
  unfold offerTurned at taken
  simp only [not_or] at taken
  obtain ⟨inTime, run, present, unqueued, idle, undecided, unskipped⟩ := taken
  unfold judgeOffer
  dsimp only
  rw [if_neg (by simp [inTime, run, present]), if_neg (by simp [unqueued, mt (isJobLug_iff s lug).1 idle]),
    if_neg (by simp [undecided, unskipped])]
  rfl

/-- R45, step 4: the state an offered slot is judged in. -/
def offeredState (sl : Slot) : OptState :=
  if sl.optState = .fault then (if sl.decision.isSome then .stale else .none) else sl.optState

theorem unFault_eq (sl : Slot) : unFault sl = { sl with optState := offeredState sl } := by
  unfold unFault offeredState
  split <;> rfl

theorem slotAt_unFault (s : State) (lug : LugSeq) :
    slotAt (updSlot s lug unFault) lug = { slotAt s lug with optState := offeredState (slotAt s lug) } := by
  rw [slotAt_updSlot_same, unFault_eq]

theorem offerFull_none (now : offeredState (slotAt s lug) = .none) :
    offerFull (updSlot s lug unFault) lug =
      { setSlot s lug { slotAt s lug with optState := .skipped, cause := .some .skipped } with
        opt := { s.opt with counts := { s.opt.counts with skipped := satInc s.opt.counts.skipped } } } := by
  unfold offerFull
  rw [slotAt_unFault]
  dsimp only
  rw [now]
  dsimp only
  rw [updSlot_updSlot, updSlot, unFault_eq]
  rfl

theorem offerFull_stale (now : offeredState (slotAt s lug) = .stale) :
    offerFull (updSlot s lug unFault) lug =
      { setSlot s lug { slotAt s lug with optState := .stale } with
        opt := { s.opt with counts := { s.opt.counts with staleOverflow := satInc s.opt.counts.staleOverflow } } } := by
  unfold offerFull
  rw [slotAt_unFault]
  dsimp only
  rw [now]
  dsimp only
  rw [updSlot, unFault_eq, now]
  rfl

/-- A slot's change leaves the optimizer's. -/
theorem updSlot_updOpt (s : State) (lug : LugSeq) (f : Optimizer → Optimizer) (g : Slot → Slot) :
    updSlot (s.updOpt f) lug g = (updSlot s lug g).updOpt f := rfl

theorem joinQueue_eq (s : State) (lug : LugSeq) : joinQueue (updSlot s lug unFault) lug =
    { setSlot s lug { slotAt s lug with
        optState := if offeredState (slotAt s lug) = .none then .waiting else offeredState (slotAt s lug) } with
      opt := { s.opt with queue := insertByAge (offset s) lug s.opt.queue } } := by
  unfold joinQueue
  rw [slotAt_unFault]
  dsimp only
  split
  · rename_i now
    rw [updSlot_updOpt, updSlot_updSlot, updSlot, unFault_eq]
    rfl
  · rw [updSlot, unFault_eq]; rfl

/-- R48: where a job stands or the queue is empty, a turned offer starts nothing. -/
theorem offerLug_turned (behind : s.opt.job = .none → s.opt.queue = []) (turned : offerTurned s lug) :
    offerLug s lug = s := by
  rw [offerLug, judgeOffer_turned turned]
  refine startJob_idle ?_
  by_cases idle : s.opt.job = .none
  · exact .inr (behind idle)
  · exact .inl idle

/-- R48: a full queue stands behind a running job, so its refusal starts nothing. -/
theorem startJob_full {t : State} (behind : s.opt.job = .none → s.opt.queue = []) (full : 16 ≤ s.opt.queue.length)
    (same : t.opt.job = s.opt.job) : startJob t = t := by
  refine startJob_idle (.inl fun idle => ?_)
  rw [behind (same ▸ idle)] at full
  exact absurd full (by decide)

/-- Settles O27: an offer past R45's conditions meets a full queue, which a running job stands before, or joins it
where `insertByAge` splits it. -/
theorem offersAreJudgedInOrder : Obligations.OffersAreJudgedInOrder := by
  intro s lug up behind sl turned now n
  have meaning : exec (.offer lug) s = .next (offerLug s lug) := exec_released _ up
  refine ⟨meaning, fun away => ?_, fun judged full none => ?_, fun judged full stale => ?_, fun judged room => ?_⟩
  · rw [meaning, offerLug_turned behind away]
  · rw [meaning, offerLug, judgeOffer_taken judged, if_pos full, offerFull_none none,
      startJob_full behind full (by rfl)]
  · rw [meaning, offerLug, judgeOffer_taken judged, if_pos full, offerFull_stale stale,
      startJob_full behind full (by rfl)]
  · obtain ⟨older, younger, split, ahead, after, joined⟩ := insertByAge_split (offset s) lug s.opt.queue
    refine ⟨older, younger, split, ahead, after, ?_⟩
    rw [meaning, offerLug, judgeOffer_taken judged, if_neg (Nat.not_le.2 room), joinQueue_eq, joined]
    rfl

/-! ### Job starts (R48 to R51) -/

theorem mem_openBins (b : BinStore) (k : Fin 48) : k.val ∈ (takeSnapshot b).openBins ↔
    k = 0 ∨ (b.bins[k].outOfService = false ∧ b.bins[k].fill + b.bins[k].reserved < b.bins[k].capacity) := by
  have record : binAt b k.val = b.bins[k] := by simp [binAt]
  rw [takeSnapshot, List.mem_filter, record, binOpen, List.mem_range]
  simp only [k.isLt, true_and, Bool.or_eq_true, beq_iff_eq, Bool.and_eq_true, Bool.not_eq_true', decide_eq_true_eq]
  rw [Fin.ext_iff]; rfl

theorem mem_exhausted (b : BinStore) {p : Nat} (inRange : p < 640) :
    p ∈ (takeSnapshot b).exhausted ↔ quotaAt b p = .some 0 := by
  simp [takeSnapshot, inRange]

theorem quickFlag_eq (s : State) (lug : LugSeq) (left : Nat) :
    quickFlag s lug left = decide (s.settings.quick ≤ left ∨ offset s lug + 1 = s.settings.dLock) := by
  rw [quickFlag, Bool.decide_or, beq_eq_decide]

/-- R48: the head of the queue becomes the job's lug. -/
theorem startJob_head {rest : List LugSeq} (idle : s.opt.job = .none) (queue : s.opt.queue = lug :: rest) :
    startJob s = askJobWord { setSlot s lug { slotAt s lug with optState := .running } with
      opt := {
        queue := rest
        job := .some (latchJob s lug rest.length)
        lastQuick := (latchJob s lug rest.length).quick
        counts := { s.opt.counts with
          started := satInc s.opt.counts.started
          quick := if (latchJob s lug rest.length).quick then satInc s.opt.counts.quick
            else s.opt.counts.quick } } } := by
  unfold startJob
  rw [idle, queue]
  rfl

/-- Settles O28: what `latchJob` copies, with the active set and the quick flag told. -/
theorem jobStartLatchesTheHeadOfTheQueue : Obligations.JobStartLatchesTheHeadOfTheQueue := by
  refine fun s => ⟨startJob_idle, ?_⟩
  intro lug rest sid idle queue active sl quick n
  refine ⟨takeSnapshot s.bos, slotCells s lug, fun unheld => ?_, fun b holds => ?_, mem_openBins s.bos,
    fun p => mem_exhausted s.bos, ?_⟩
  · unfold slotCells; rw [show (slotAt s lug).buffer = .none from unheld]
  · unfold slotCells; rw [show (slotAt s lug).buffer = .some b.val from holds]; simp
  · rw [startJob_head idle queue, latchJob, quickFlag_eq, active]
    rfl

/-! ### Job completions (R62 to R65) -/

theorem marksDiffer_iff (job : Job) (sl : Slot) : marksDiffer job sl = true ↔
    sl.revision ≠ job.revision ∨ sl.reject = true ∨ sl.cap ≠ job.cap ∨ sl.cuts ≠ job.cuts := by
  simp only [marksDiffer, Bool.or_eq_true, bne_iff_ne, or_assoc]

theorem jobReady_iff (job : Job) :
    jobReady job = true ↔ job.asked = .none ∧ (job.uncorrectable = true ∨ jobNext job = .none) := by
  simp [jobReady]

theorem completeJob_ready {job : Job} (running : s.opt.job = .some job) (ready : jobReady job = true) :
    completeJob s = startJob (jobOutcome (s.updOpt fun o => { o with job := .none }) job) := by
  rw [completeJob, running]
  exact if_pos ready

section
variable {job : Job}

theorem jobOutcome_late (late : s.settings.dLock ≤ offset s job.lug) :
    jobOutcome s job = s.updOptCounts fun c => { c with abandoned := satInc c.abandoned } := if_pos late

variable (below : offset s job.lug < s.settings.dLock)
include below

theorem jobOutcome_discarded (differ : marksDiffer job (slotAt s job.lug) = true) :
    jobOutcome s job = discardResult s job.lug := (if_neg (Nat.not_le.2 below)).trans (if_pos differ)

variable (same : ¬ marksDiffer job (slotAt s job.lug) = true)
include same

theorem jobOutcome_fault (uncorrectable : job.uncorrectable = true) : jobOutcome s job =
    (updSlot s job.lug fun sl => { sl with optState := .fault }).updOptCounts
      fun c => { c with fault := satInc c.fault } :=
  (if_neg (Nat.not_le.2 below)).trans ((if_neg same).trans (if_pos uncorrectable))

theorem jobOutcome_decided (correctable : job.uncorrectable = false) : jobOutcome s job =
    (updSlot s job.lug fun sl =>
      { sl with optState := .decided, decision := .some (decisionOf job job.len job.wc job.cells) }).updOptCounts
      fun c => { c with decided := satInc c.decided } :=
  (if_neg (Nat.not_le.2 below)).trans ((if_neg same).trans (if_neg (by simp [correctable])))

end

theorem discardResult_rejected {d : Decision} (decision : (slotAt s lug).decision = .some d)
    (rejected : d.body = .reject) :
    discardResult s lug = s.updOptCounts fun c => { c with discarded := satInc c.discarded } := by
  unfold discardResult
  dsimp only
  rw [show (slotAt (s.updOptCounts _) lug).decision = .some d from decision]
  exact if_pos rejected

theorem discardResult_stale {d : Decision} (decision : (slotAt s lug).decision = .some d)
    (unrejected : d.body ≠ .reject) : discardResult s lug =
    judgeOffer (updSlot (s.updOptCounts fun c => { c with discarded := satInc c.discarded }) lug
      fun sl => { sl with optState := .stale }) lug := by
  unfold discardResult
  dsimp only
  rw [show (slotAt (s.updOptCounts _) lug).decision = .some d from decision]
  exact if_neg unrejected

theorem discardResult_undecided (undecided : (slotAt s lug).decision = .none) : discardResult s lug =
    judgeOffer (updSlot (s.updOptCounts fun c => { c with discarded := satInc c.discarded }) lug
      fun sl => { sl with optState := .none }) lug := by
  unfold discardResult
  dsimp only
  rw [show (slotAt (s.updOptCounts _) lug).decision = .none from undecided]

/-- Settles O30: one equation of `jobOutcome` or `discardResult` for each outcome, on the state with the job ended. -/
theorem jobCompletionOutcomes : Obligations.JobCompletionOutcomes := by
  intro s job up running asked whole lug sl n idle differ below dropped
  have meaning : exec .jobCompletion s = .next (startJob (jobOutcome (idle n) job)) := by
    rw [exec_released _ up, effect, completeJob_ready running ((jobReady_iff job).2 ⟨asked, whole⟩)]
    rfl
  have differ_iff : marksDiffer job (slotAt (idle n) job.lug) = true ↔ differ := marksDiffer_iff job sl
  refine ⟨fun late => ?_, fun inTime changed => ⟨fun d decision rejected => ?_, fun d decision unrejected => ?_,
    fun undecided => ?_⟩, fun inTime same uncorrectable => ?_, fun inTime same correctable => ?_⟩
  · rw [meaning, jobOutcome_late (s := idle n) (Nat.not_lt.1 late)]; rfl
  · rw [meaning, jobOutcome_discarded (s := idle n) inTime (differ_iff.2 changed),
      discardResult_rejected (s := idle n) decision rejected]
    rfl
  · rw [meaning, jobOutcome_discarded (s := idle n) inTime (differ_iff.2 changed),
      discardResult_stale (s := idle n) decision unrejected]
    rfl
  · rw [meaning, jobOutcome_discarded (s := idle n) inTime (differ_iff.2 changed),
      discardResult_undecided (s := idle n) undecided]
    rfl
  · rw [meaning, jobOutcome_fault (s := idle n) inTime (mt differ_iff.1 same) uncorrectable]; rfl
  · rw [meaning, jobOutcome_decided (s := idle n) inTime (mt differ_iff.1 same) correctable]; rfl

end Sys2Proof.Proofs
end

section
/-! SUPPORT. The arithmetic of a job: the words it needs, its graded candidates, the piece it decides and the grade
rows (sections 3.3, 3.4). -/

namespace Sys2Proof.Proofs

open Sys2Proof Sys2Proof.Machine

variable {s : State}

/-! ### The reads of a job (R52, R138) -/

theorem endOptRead_of {a : Access} (access : s.tm.access = .some a) (mine : a.who = .optimizer) :
    endOptRead s = if a.wanted then askJobWord (giveJobWord (endAccess (noteRead s .optimizer a.index))
      (checkAt s a.index)) else endAccess (noteRead s .optimizer a.index) := by
  rw [endOptRead, access]
  exact if_pos mine

/-- R135, R138: the end of a read touches no job. -/
theorem endedRead_opt (s : State) (who : Requester) (i : Nat) : (endAccess (noteRead s who i)).opt = s.opt :=
  ((noteRead_touches s who i).mono (by decide : _ ⊆ [Block.tm, .lu, .freeCount])).next (endAccess_touches _) (by decide)
    .opt (by decide)

theorem giveJobWord_eq {job : Job} (r : CheckResult) (running : s.opt.job = .some job) :
    giveJobWord s r = { s with opt := { s.opt with job := .some (jobReceives job r) } } := by
  rw [giveJobWord, State.updOpt, running]; rfl

theorem jobReceives_value {job : Job} {k : Nat} {r : CheckResult} {v : Word} (asked : job.asked = .some k)
    (good : r = .clean v ∨ r = .single v) :
    jobReceives job r = { job with words := (k, v) :: job.words, asked := .none } := by
  unfold jobReceives
  rw [asked]
  obtain rfl | rfl := good <;> rfl

theorem jobReceives_double {job : Job} {k : Nat} (asked : job.asked = .some k) :
    jobReceives job .double = { job with uncorrectable := true, asked := .none } := by
  unfold jobReceives
  rw [asked]

theorem askJobWord_done {job : Job} (running : s.opt.job = .some job)
    (done : job.uncorrectable = true ∨ jobNext job = .none) : askJobWord s = s := by
  unfold askJobWord
  rw [running]
  dsimp only
  obtain uncorrectable | complete := done
  · rw [if_pos uncorrectable]
  · rw [complete, ite_self]

theorem askJobWord_asks {job : Job} {k : Nat} {e : MapEntry} (running : s.opt.job = .some job)
    (correctable : job.uncorrectable = false) (next : jobNext job = .some k)
    (mapped : entryOf s.tm job.set (k / 256) = .some e) :
    askJobWord s = requestOpt (s.updOpt fun o => { o with job := .some { job with asked := .some k } })
      (e.page * 256 + k % 256) := by
  unfold askJobWord physOf
  rw [running]
  dsimp only
  rw [if_neg (by simp [correctable]), next]
  dsimp only
  rw [mapped]
  rfl

/-! ### The words a job needs (R52; notes/assumptions/19.md) -/

theorem firstUnread_none (words : List (Nat × Word)) (keys : List Nat) :
    firstUnread words keys = .none ↔ ∀ k ∈ keys, words.lookup k ≠ .none := by
  simp [firstUnread]

theorem firstUnread_some {words : List (Nat × Word)} {keys : List Nat} {k : Nat}
    (first : firstUnread words keys = .some k) : k ∈ keys ∧ words.lookup k = .none :=
  ⟨List.mem_of_find?_eq_some first, by simpa using List.find?_some first⟩

theorem mem_rowHeadKeys (k : Nat) : k ∈ rowHeadKeys ↔ ∃ r, 1 ≤ r ∧ r ≤ 8 ∧ k = 256 + 32 * (r - 1) := by
  simp only [rowHeadKeys, List.mem_map, List.mem_range'_1, rowBase]
  constructor
  · rintro ⟨r, ⟨low, high⟩, rfl⟩; exact ⟨r, low, by omega, rfl⟩
  · rintro ⟨r, low, high, rfl⟩; exact ⟨r, ⟨low, by omega⟩, rfl⟩

theorem rowEnabled_iff (words : List (Nat × Word)) (r : Nat) :
    rowEnabled words r = true ↔ ((words.lookup (256 + 32 * (r - 1))).getD 0).getLsbD 15 = true := by
  rw [rowEnabled, readWord, rowBase, BitVec.msb_eq_getLsbD_last]

theorem mem_rowBodyKeys (words : List (Nat × Word)) (k : Nat) : k ∈ rowBodyKeys words ↔
    ∃ r m, 1 ≤ r ∧ r ≤ 8 ∧ ((words.lookup (256 + 32 * (r - 1))).getD 0).getLsbD 15 = true ∧ 1 ≤ m ∧ m ≤ 9
      ∧ k = 256 + 32 * (r - 1) + m := by
  simp only [rowBodyKeys, List.mem_flatMap, List.mem_range'_1]
  constructor
  · rintro ⟨r, ⟨low, high⟩, mem⟩
    by_cases enabled : rowEnabled words r = true
    · rw [if_pos enabled, List.mem_map] at mem
      obtain ⟨m, range, rfl⟩ := mem
      rw [List.mem_range'_1] at range
      exact ⟨r, m, low, by omega, (rowEnabled_iff words r).1 enabled, range.1, by omega, rfl⟩
    · rw [if_neg enabled] at mem; cases mem
  · rintro ⟨r, m, low, high, enabled, first, last, rfl⟩
    refine ⟨r, ⟨low, by omega⟩, ?_⟩
    rw [if_pos ((rowEnabled_iff words r).2 enabled), List.mem_map]
    exact ⟨m, List.mem_range'_1.2 ⟨first, by omega⟩, rfl⟩

section
variable (job : Job) (len wc : Nat) (cells : Sparse (BitVec 4))

/-- R58: the prices of the products of the graded candidates. -/
def priceKeys : List Nat := ((gradedCandidates job len wc cells).map (·.product)).map (priceKey job.snapshot)

/-- R59: the sort map words of the products of a nonzero price. -/
def sortKeys : List Nat :=
  (((gradedCandidates job len wc cells).map (·.product)).filter fun p =>
    priceOf job.words job.snapshot p != 0).map sortKey

theorem nextWord_none : nextWord job len wc cells = .none ↔
    (∀ k ∈ rowHeadKeys, job.words.lookup k ≠ .none) ∧ (∀ k ∈ rowBodyKeys job.words, job.words.lookup k ≠ .none)
      ∧ (∀ k ∈ priceKeys job len wc cells, job.words.lookup k ≠ .none)
      ∧ ∀ k ∈ sortKeys job len wc cells, job.words.lookup k ≠ .none := by
  simp only [← firstUnread_none, priceKeys, sortKeys]
  unfold nextWord
  cases firstUnread job.words rowHeadKeys with
  | some k => simp
  | none =>
    cases firstUnread job.words (rowBodyKeys job.words) with
    | some k => simp
    | none =>
      dsimp only
      cases firstUnread job.words
          (((gradedCandidates job len wc cells).map (·.product)).map (priceKey job.snapshot)) with
      | some k => simp
      | none => simp

theorem nextWord_some {k : Nat} (next : nextWord job len wc cells = .some k) : job.words.lookup k = .none ∧
    (k ∈ rowHeadKeys
      ∨ (∀ k ∈ rowHeadKeys, job.words.lookup k ≠ .none) ∧ k ∈ rowBodyKeys job.words
      ∨ (∀ k ∈ rowHeadKeys, job.words.lookup k ≠ .none) ∧ (∀ k ∈ rowBodyKeys job.words, job.words.lookup k ≠ .none)
        ∧ k ∈ priceKeys job len wc cells
      ∨ (∀ k ∈ rowHeadKeys, job.words.lookup k ≠ .none) ∧ (∀ k ∈ rowBodyKeys job.words, job.words.lookup k ≠ .none)
        ∧ (∀ k ∈ priceKeys job len wc cells, job.words.lookup k ≠ .none) ∧ k ∈ sortKeys job len wc cells) := by
  simp only [← firstUnread_none]
  unfold nextWord at next
  split at next
  · rename_i first; cases next
    exact ⟨(firstUnread_some first).2, .inl (firstUnread_some first).1⟩
  · rename_i heads
    split at next
    · rename_i first; cases next
      exact ⟨(firstUnread_some first).2, .inr (.inl ⟨heads, (firstUnread_some first).1⟩)⟩
    · rename_i bodies
      dsimp only at next
      split at next
      · rename_i first; cases next
        exact ⟨(firstUnread_some first).2, .inr (.inr (.inl ⟨heads, bodies, (firstUnread_some first).1⟩))⟩
      · rename_i prices
        exact ⟨(firstUnread_some next).2, .inr (.inr (.inr ⟨heads, bodies, prices, (firstUnread_some next).1⟩))⟩

end

/-! ### Graded candidates (R53 to R58) -/

/-- R53: no station of a cut list lies in the piece of a pair. -/
theorem cutConflict_iff (cuts : List Nat) (i j : Nat) :
    cutConflict cuts i j = false ↔ ∀ x ∈ cuts, ¬ (12 + 24 * i ≤ x ∧ x < 12 + 24 * j) := by
  rw [cutConflict, List.any_eq_false]
  simp only [Bool.and_eq_true, decide_eq_true_eq]
  rfl

theorem mem_candidates (len : Nat) (quick : Bool) (cuts : List Nat) (i j : Nat) :
    (i, j) ∈ candidates len quick cuts ↔ i < j ∧ j ≤ 10 ∧ 12 + 24 * j ≤ len ∧ (quick = true → i = 0)
      ∧ ∀ x ∈ cuts, ¬ (12 + 24 * i ≤ x ∧ x < 12 + 24 * j) := by
  rw [← cutConflict_iff]
  simp only [candidates, List.mem_flatMap, List.mem_range, List.mem_map, List.mem_filter, Bool.and_eq_true,
    decide_eq_true_eq, Bool.or_eq_true, Bool.not_eq_true', beq_iff_eq, Prod.mk.injEq]
  constructor
  · rintro ⟨i', inRange, j', ⟨last, ⟨⟨lt, fits⟩, mode⟩, cuts⟩, rfl, rfl⟩
    refine ⟨lt, by omega, fits, fun q => ?_, cuts⟩
    obtain full | zero := mode
    · rw [full] at q; cases q
    · exact zero
  · rintro ⟨lt, last, fits, mode, cuts⟩
    refine ⟨i, by omega, j, ⟨by omega, ⟨⟨lt, fits⟩, ?_⟩, cuts⟩, rfl, rfl⟩
    cases quick with
    | false => exact .inl rfl
    | true => exact .inr (mode rfl)

/-- R57: the final grade, the cap told. -/
theorem finalGrade_eq (g : Nat) (cap : Option Nat) :
    finalGrade g cap = match cap with | .some c => max g c | .none => g := by
  cases cap with
  | none => exact Nat.max_zero g
  | some c => rfl

theorem mem_gradedCandidates (job : Job) (len wc : Nat) (cells : Sparse (BitVec 4)) (c : Graded) :
    c ∈ gradedCandidates job len wc cells ↔ (c.i, c.j) ∈ candidates len job.quick job.cuts
      ∧ computedGrade job.words cells c.i c.j = .some c.grade ∧ c.final = finalGrade c.grade job.cap
      ∧ c.product = productOf wc c.final (c.j - c.i) := by
  simp only [gradedCandidates, List.mem_filterMap, Option.map_eq_some_iff]
  constructor
  · rintro ⟨⟨i, j⟩, member, g, graded, rfl⟩
    exact ⟨member, graded, rfl, rfl⟩
  · rintro ⟨member, graded, final, product⟩
    refine ⟨(c.i, c.j), member, c.grade, graded, ?_⟩
    rw [← final, ← product]

/-- R52, R58: the products of the graded candidates. -/
theorem mem_products (job : Job) (p : Nat) :
    p ∈ (gradedCandidates job job.len job.wc job.cells).map (·.product) ↔
      ∃ i j g, i < j ∧ j ≤ 10 ∧ 12 + 24 * j ≤ job.len ∧ (job.quick = true → i = 0)
        ∧ (∀ x ∈ job.cuts, ¬ (12 + 24 * i ≤ x ∧ x < 12 + 24 * j))
        ∧ computedGrade job.words job.cells i j = .some g
        ∧ p = (job.wc * 8 + ((match job.cap with | .some c => max g c | .none => g) - 1)) * 10 + (j - i - 1) := by
  rw [List.mem_map]
  constructor
  · rintro ⟨c, member, rfl⟩
    obtain ⟨candidate, graded, final, product⟩ := (mem_gradedCandidates _ _ _ _ c).1 member
    obtain ⟨lt, last, fits, mode, cuts⟩ := (mem_candidates _ _ _ _ _).1 candidate
    refine ⟨c.i, c.j, c.grade, lt, last, fits, mode, cuts, graded, ?_⟩
    rw [product, final, finalGrade_eq]; rfl
  · rintro ⟨i, j, g, lt, last, fits, mode, cuts, graded, rfl⟩
    refine ⟨⟨i, j, g, finalGrade g job.cap, productOf job.wc (finalGrade g job.cap) (j - i)⟩,
      (mem_gradedCandidates _ _ _ _ _).2 ⟨(mem_candidates _ _ _ _ _).2 ⟨lt, last, fits, mode, cuts⟩, graded, rfl, rfl⟩,
      ?_⟩
    rw [finalGrade_eq]; rfl

/-- Settles O29: the read's outcome reaches the job, which asks through its set for the first word of four lists that
it has not read. -/
theorem jobReadsEachWordOnce : Obligations.JobReadsEachWordOnce := by
  refine ⟨fun s a up access mine => ?_, fun s job running => ⟨askJobWord_done running, ?_⟩, fun job => ?_⟩
  · intro read
    have meaning : exec .optimizerRead s = .next (if a.wanted then askJobWord (giveJobWord read (checkAt s a.index))
        else read) := by
      rw [exec_released _ up, effect, endOptRead_of access mine]
    refine ⟨fun unwanted => by rw [meaning, if_neg (by simp [unwanted])], ?_⟩
    intro job k wanted running asked gets
    have reaches : exec .optimizerRead s = .next (gets (jobReceives job (checkAt s a.index))) := by
      have kept : read.opt = s.opt := endedRead_opt s .optimizer a.index
      rw [meaning, if_pos wanted, giveJobWord_eq _ (by rw [kept]; exact running), kept]
    exact ⟨fun v good => by rw [reaches, jobReceives_value asked good],
      fun bad => by rw [reaches, bad, jobReceives_double asked]⟩
  · intro k page ro correctable next mapped
    rw [askJobWord_asks running correctable next mapped]
    rfl
  · intro has word row price rowHead rowBody product priced sorted all
    have heads (k : Nat) : k ∈ rowHeadKeys ↔ rowHead k := mem_rowHeadKeys k
    have bodies (k : Nat) : k ∈ rowBodyKeys job.words ↔ rowBody k := mem_rowBodyKeys job.words k
    have products (p : Nat) : p ∈ (gradedCandidates job job.len job.wc job.cells).map (·.product) ↔ product p :=
      mem_products job p
    have prices (k : Nat) : k ∈ priceKeys job job.len job.wc job.cells ↔ priced k := by
      rw [priceKeys, List.mem_map]
      exact exists_congr fun p => by rw [products, eq_comm (a := k)]; rfl
    have sorts (k : Nat) : k ∈ sortKeys job job.len job.wc job.cells ↔ sorted k := by
      rw [sortKeys, List.mem_map]
      refine exists_congr fun p => ?_
      rw [List.mem_filter, products, bne_iff_ne, and_assoc, eq_comm (a := k)]
      exact and_congr_right fun _ => and_congr (not_congr (BitVec.toNat_inj (x := word (price p)) (y := 0))) Iff.rfl
    refine ⟨?_, fun k next => ?_⟩
    · have none := nextWord_none job job.len job.wc job.cells
      simp only [heads, bodies, prices, sorts] at none
      exact none
    · obtain ⟨unread, place⟩ := nextWord_some job job.len job.wc job.cells next
      simp only [heads, bodies, prices, sorts] at place
      exact ⟨not_not_intro unread, place⟩

end Sys2Proof.Proofs
end

section
/-! SUPPORT. The decision of a job and the grade rows it passes (sections 3.3 to 3.5). -/

namespace Sys2Proof.Proofs

open Sys2Proof Sys2Proof.Machine

/-! ### The choice among eligible pieces (R60) -/

theorem better_iff (x y : PieceData) : better x y = true ↔
    y.value < x.value ∨ x.value = y.value ∧ (y.j - y.i < x.j - x.i ∨ x.j - x.i = y.j - y.i ∧ x.i < y.i) := by
  simp only [better, Bool.or_eq_true, Bool.and_eq_true, decide_eq_true_eq, beq_iff_eq]

theorem not_better_self (x : PieceData) : ¬ better x x = true := by
  rw [better_iff]; omega

theorem not_better_of_better {x y : PieceData} (h : better x y = true) : ¬ better y x = true := by
  rw [better_iff] at *
  omega

/-- R60: a piece that does not outrank another outranks none that the other does not. -/
theorem not_better_trans {x y z : PieceData} (h : ¬ better x y = true) (h' : ¬ better y z = true) :
    ¬ better x z = true := by
  rw [better_iff] at *
  omega

/-- R60: the better of the best piece so far and the next. -/
def keepBetter (best : Option PieceData) (x : PieceData) : Option PieceData :=
  match best with
  | .none => .some x
  | .some y => if better x y then .some x else .some y

theorem choosePiece_eq (l : List PieceData) : choosePiece l = l.foldl keepBetter .none := rfl

theorem foldl_keepBetter : ∀ (l : List PieceData) (y : PieceData), ∃ p, l.foldl keepBetter (.some y) = .some p
    ∧ p ∈ y :: l ∧ ∀ q ∈ y :: l, ¬ better q p = true
  | [], y => ⟨y, rfl, List.mem_singleton_self y, fun q hq => by
      rw [List.mem_singleton] at hq; rw [hq]; exact not_better_self y⟩
  | x :: l, y => by
    by_cases outranks : better x y = true
    · have kept : keepBetter (.some y) x = .some x := if_pos outranks
      obtain ⟨p, best, member, most⟩ := foldl_keepBetter l x
      refine ⟨p, by rw [List.foldl_cons, kept, best], List.mem_cons_of_mem _ member, fun q hq => ?_⟩
      obtain rfl | rest := List.mem_cons.1 hq
      · exact not_better_trans (not_better_of_better outranks) (most x (List.mem_cons_self ..))
      · exact most q rest
    · have kept : keepBetter (.some y) x = .some y := if_neg outranks
      obtain ⟨p, best, member, most⟩ := foldl_keepBetter l y
      have first := most y (List.mem_cons_self ..)
      refine ⟨p, by rw [List.foldl_cons, kept, best], ?_, fun q hq => ?_⟩
      · exact (List.mem_cons.1 member).elim (fun h => h ▸ List.mem_cons_self ..)
          fun tail => List.mem_cons_of_mem _ (List.mem_cons_of_mem _ tail)
      · obtain rfl | rest := List.mem_cons.1 hq
        · exact first
        · obtain rfl | tail := List.mem_cons.1 rest
          · exact not_better_trans outranks first
          · exact most q (List.mem_cons_of_mem _ tail)

theorem choosePiece_none (l : List PieceData) : choosePiece l = .none ↔ l = [] := by
  cases l with
  | nil => exact ⟨fun _ => rfl, fun _ => rfl⟩
  | cons x l =>
    obtain ⟨p, best, _⟩ := foldl_keepBetter l x
    have some : choosePiece (x :: l) = .some p := best
    rw [some]
    exact ⟨nofun, nofun⟩

theorem choosePiece_some {l : List PieceData} {p : PieceData} (chosen : choosePiece l = .some p) :
    p ∈ l ∧ ∀ q ∈ l, ¬ better q p = true := by
  cases l with
  | nil => cases chosen
  | cons x l =>
    obtain ⟨p', best, member, most⟩ := foldl_keepBetter l x
    have some : choosePiece (x :: l) = .some p' := best
    rw [some] at chosen
    cases chosen
    exact ⟨member, most⟩

/-! ### Eligible pieces (R58 to R60) -/

/-- R59: a bin is named and stands open in the snapshot. -/
def openedBin (snap : Snapshot) (b : Option Nat) : Prop := ∃ n, b = .some n ∧ n ∈ snap.openBins

theorem any_openBins (snap : Snapshot) (b : Option Nat) :
    (b.any fun n => n ∈ snap.openBins) = true ↔ openedBin snap b := by
  unfold openedBin
  cases b <;> simp

/-- R59: the primary bin if open, the alternate recorded with it; else the alternate if open, alone. -/
theorem chooseBin_iff (snap : Snapshot) (w : Word) (b : Nat × Option Nat) : chooseBin snap w = .some b ↔
    openedBin snap (binsOfWord w).1 ∧ .some b.1 = (binsOfWord w).1 ∧ b.2 = (binsOfWord w).2
    ∨ ¬ openedBin snap (binsOfWord w).1 ∧ openedBin snap (binsOfWord w).2 ∧ .some b.1 = (binsOfWord w).2
      ∧ b.2 = .none := by
  obtain ⟨x, y⟩ := b
  unfold chooseBin
  obtain ⟨primary, other⟩ := binsOfWord w
  have alone : (if (other.any fun n => n ∈ snap.openBins) = true then other.map fun a => (a, (none : Option Nat))
      else none) = some (x, y) ↔ openedBin snap other ∧ some x = other ∧ y = none := by
    rw [← any_openBins]
    cases other with
    | none => simp
    | some m => by_cases opened : m ∈ snap.openBins <;> simp [opened, eq_comm]
  cases primary with
  | none =>
    have unnamed : ¬ openedBin snap none := fun ⟨_, named, _⟩ => nomatch named
    simp only [unnamed, false_and, false_or, not_false_eq_true, true_and]
    exact alone
  | some n =>
    have primary_iff := any_openBins snap (some n)
    dsimp only
    by_cases opened : openedBin snap (some n)
    · rw [if_pos (primary_iff.2 opened)]
      simp [opened, eq_comm]
    · rw [if_neg (mt primary_iff.1 opened), alone]
      simp [opened]

theorem eligible_iff (job : Job) (c : Graded) (p : PieceData) : eligible job c = .some p ↔
    priceOf job.words job.snapshot c.product ≠ 0
    ∧ ∃ b, chooseBin job.snapshot (readWord job.words (sortKey c.product)) = .some b
      ∧ p = { i := c.i, j := c.j, grade := c.grade, final := c.final, product := c.product,
              value := priceOf job.words job.snapshot c.product, chosen := .some b.1, alternate := b.2 } := by
  unfold eligible
  dsimp only
  split
  · rename_i free; simp [free]
  · rename_i priced
    rw [Option.map_eq_some_iff]
    simp only [priced, ne_eq, not_false_eq_true, true_and, eq_comm (a := p)]

/-- R57, R58: a pair is graded one way only. -/
theorem graded_unique {job : Job} {len wc : Nat} {cells : Sparse (BitVec 4)} {c d : Graded}
    (hc : c ∈ gradedCandidates job len wc cells) (hd : d ∈ gradedCandidates job len wc cells) (hi : c.i = d.i)
    (hj : c.j = d.j) : c = d := by
  obtain ⟨-, grade, final, product⟩ := (mem_gradedCandidates _ _ _ _ _).1 hc
  obtain ⟨-, grade', final', product'⟩ := (mem_gradedCandidates _ _ _ _ _).1 hd
  obtain ⟨i, j, g, f, p⟩ := c
  obtain ⟨i', j', g', f', p'⟩ := d
  dsimp only at *
  subst hi hj
  rw [grade, Option.some.injEq] at grade'
  subst grade' final final' product product'
  rfl

/-- R53 to R60: the eligible pieces of a job. -/
def eligiblePieces (job : Job) (len wc : Nat) (cells : Sparse (BitVec 4)) : List PieceData :=
  (gradedCandidates job len wc cells).filterMap (eligible job)

/-- R53, R60: a pair is eligible in one form only. -/
theorem eligible_unique {job : Job} {len wc : Nat} {cells : Sparse (BitVec 4)} {p q : PieceData}
    (hp : p ∈ eligiblePieces job len wc cells) (hq : q ∈ eligiblePieces job len wc cells) (hi : p.i = q.i)
    (hj : p.j = q.j) : p = q := by
  obtain ⟨c, member, made⟩ := List.mem_filterMap.1 hp
  obtain ⟨d, member', made'⟩ := List.mem_filterMap.1 hq
  obtain ⟨-, b, -, form⟩ := (eligible_iff job c p).1 made
  obtain ⟨-, b', -, form'⟩ := (eligible_iff job d q).1 made'
  rw [form, form'] at hi hj
  rw [graded_unique member member' hi hj] at made
  exact Option.some.inj (made.symm.trans made')

/-- R53 to R59: what makes a piece eligible. -/
theorem mem_eligiblePieces (job : Job) (len wc : Nat) (cells : Sparse (BitVec 4)) (p : PieceData) :
    p ∈ eligiblePieces job len wc cells ↔ (p.i, p.j) ∈ candidates len job.quick job.cuts
      ∧ computedGrade job.words cells p.i p.j = .some p.grade ∧ p.final = finalGrade p.grade job.cap
      ∧ p.product = productOf wc p.final (p.j - p.i) ∧ p.value = priceOf job.words job.snapshot p.product
      ∧ p.value ≠ 0 ∧
      let bins := binsOfWord (readWord job.words (sortKey p.product))
      (openedBin job.snapshot bins.1 ∧ p.chosen = bins.1 ∧ p.alternate = bins.2
        ∨ ¬ openedBin job.snapshot bins.1 ∧ openedBin job.snapshot bins.2 ∧ p.chosen = bins.2
          ∧ p.alternate = .none) := by
  constructor
  · intro member
    obtain ⟨c, graded, made⟩ := List.mem_filterMap.1 member
    obtain ⟨priced, b, binned, rfl⟩ := (eligible_iff job c p).1 made
    obtain ⟨candidate, grade, final, product⟩ := (mem_gradedCandidates _ _ _ _ c).1 graded
    exact ⟨candidate, grade, final, product, rfl, priced, (chooseBin_iff _ _ b).1 binned⟩
  · rintro ⟨candidate, grade, final, product, value, priced, binned⟩
    refine List.mem_filterMap.2 ⟨⟨p.i, p.j, p.grade, p.final, p.product⟩,
      (mem_gradedCandidates _ _ _ _ _).2 ⟨candidate, grade, final, product⟩, ?_⟩
    have named : ∃ n, p.chosen = .some n := by
      obtain ⟨⟨n, isBin, _⟩, chosen, _⟩ | ⟨_, ⟨n, isBin, _⟩, chosen, _⟩ := binned
      · exact ⟨n, chosen.trans isBin⟩
      · exact ⟨n, chosen.trans isBin⟩
    obtain ⟨n, chosen⟩ := named
    refine (eligible_iff job _ p).2 ⟨value ▸ priced, (n, p.alternate), (chooseBin_iff _ _ _).2 (chosen ▸ binned), ?_⟩
    dsimp only
    rw [← value, ← chosen]

/-- Settles O32: the members of `eligiblePieces` are the eligible pieces, `choosePiece` takes one that none outranks,
and two of one rank are of one pair. -/
theorem theBestEligiblePieceIsDecided : Obligations.TheBestEligiblePieceIsDecided := by
  intro job len wc cells d word bin opened binned eligiblePiece
  have eligible_mem (p : PieceData) : p ∈ eligiblePieces job len wc cells ↔ eligiblePiece p := by
    rw [mem_eligiblePieces, mem_candidates, finalGrade_eq]
    constructor
    · rintro ⟨⟨lt, last, fits, mode, cuts⟩, rest⟩
      exact ⟨lt, last, fits, mode, cuts, rest⟩
    · rintro ⟨lt, last, fits, mode, cuts, rest⟩
      exact ⟨⟨lt, last, fits, mode, cuts⟩, rest⟩
  have body : d.body = match choosePiece (eligiblePieces job len wc cells) with
      | .some p => .piece p
      | .none => .cull := rfl
  refine ⟨rfl, rfl, rfl, rfl, rfl, ?_⟩
  cases chosen : choosePiece (eligiblePieces job len wc cells) with
  | none =>
    rw [chosen] at body
    have empty := (choosePiece_none _).1 chosen
    refine ⟨fun p piece => ?_, ⟨fun _ p eligible => ?_, fun _ => body⟩, ?_⟩
    · rw [body] at piece; cases piece
    · rw [← eligible_mem, empty] at eligible; cases eligible
    · rw [body]; exact nofun
  | some best =>
    rw [chosen] at body
    obtain ⟨member, most⟩ := choosePiece_some chosen
    refine ⟨fun p piece => ?_, ⟨fun cull => ?_, fun none => ?_⟩, ?_⟩
    · rw [body] at piece
      cases piece
      refine ⟨(eligible_mem best).1 member, fun q eligible => ?_⟩
      have member' := (eligible_mem q).2 eligible
      have rank := most q member'
      rw [better_iff] at rank
      obtain ⟨lt, -⟩ := (eligible_mem best).1 member
      obtain ⟨lt', -⟩ := eligible
      by_cases same : q.i = best.i ∧ q.j = best.j
      · exact .inl (eligible_unique member' member same.1 same.2)
      · right; omega
    · rw [body] at cull; cases cull
    · exact absurd ((eligible_mem best).1 member) (none best)
    · rw [body]; exact nofun

end Sys2Proof.Proofs
end

section
/-! SUPPORT. The grade rows over the cells of a map (R54 to R57). -/

namespace Sys2Proof.Proofs

open Sys2Proof Sys2Proof.Machine

/-! ### A canonical store as the set of what it holds -/

section
variable {α : Type} [DecidableEq α] (d : α)

/-- The entries of a canonical store are the keys that do not read as the default. -/
theorem mem_sparse : ∀ {m : Sparse α} {lo : Nat}, sparseWfFrom d lo m = true → ∀ (k : Nat) (v : α),
    (k, v) ∈ m ↔ sparseGet d m k = v ∧ v ≠ d
  | [], _, _, k, v => ⟨fun h => (nomatch h), fun ⟨default, other⟩ => absurd default.symm other⟩
  | (k₀, v₀) :: m, lo, w, k, v => by
    simp only [sparseWfFrom, Bool.and_eq_true, decide_eq_true_eq] at w
    obtain ⟨⟨-, listed⟩, tail⟩ := w
    rw [List.mem_cons, Prod.mk.injEq, mem_sparse tail, sparseGet]
    by_cases here : k = k₀
    · subst here
      rw [sparseGet_below d (Nat.lt_succ_self k) tail, if_pos rfl]
      constructor
      · rintro (⟨-, rfl⟩ | ⟨default, other⟩)
        · exact ⟨rfl, listed⟩
        · exact absurd default.symm other
      · rintro ⟨rfl, -⟩; exact .inl ⟨rfl, rfl⟩
    · rw [if_neg here]; simp [here]

theorem sparseKeys_from : ∀ {m : Sparse α} {lo : Nat}, sparseWfFrom d lo m = true →
    (m.map Prod.fst).Nodup ∧ ∀ k ∈ m.map Prod.fst, lo ≤ k
  | [], _, _ => ⟨List.nodup_nil, fun _ h => (nomatch h)⟩
  | (k₀, v₀) :: m, lo, w => by
    simp only [sparseWfFrom, Bool.and_eq_true, decide_eq_true_eq] at w
    obtain ⟨⟨low, -⟩, tail⟩ := w
    obtain ⟨nodup, above⟩ := sparseKeys_from tail
    refine ⟨List.nodup_cons.2 ⟨fun again => absurd (above k₀ again) (Nat.not_succ_le_self k₀), nodup⟩, fun k hk => ?_⟩
    obtain rfl | rest := List.mem_cons.1 hk
    · exact low
    · exact low.trans ((Nat.le_succ k₀).trans (above k rest))

/-- Counting the entries of a canonical store below a bound counts the keys below it. -/
theorem countP_sparse {m : Sparse α} (canonical : sparseWf d m = true) {bound : Nat}
    (inside : ∀ x ∈ m, x.1 < bound) (p : Nat → α → Bool) (unlisted : ∀ k, p k d = false) :
    m.countP (fun x => p x.1 x.2) = ((List.range bound).filter fun k => p k (sparseGet d m k)).length := by
  rw [List.countP_eq_length_filter, ← List.length_map (f := Prod.fst)]
  refine List.Perm.length_eq ((List.perm_ext_iff_of_nodup ?_ (List.nodup_range.filter _)).2 fun k => ?_)
  · exact (sparseKeys_from d canonical).1.sublist (List.filter_sublist.map _)
  · simp only [List.mem_map, List.mem_filter, List.mem_range]
    constructor
    · rintro ⟨⟨k', v⟩, ⟨member, holds⟩, rfl⟩
      obtain ⟨read, -⟩ := (mem_sparse d canonical k' v).1 member
      exact ⟨inside _ member, by rw [read]; exact holds⟩
    · rintro ⟨-, holds⟩
      refine ⟨(k, sparseGet d m k), ⟨(mem_sparse d canonical k _).2 ⟨rfl, fun default => ?_⟩, holds⟩, rfl⟩
      rw [default, unlisted] at holds
      cases holds

end

/-! ### The tests of a row (R54 to R56) -/

section
variable {words : List (Nat × Word)} {cells : Sparse (BitVec 4)} (canonical : sparseWf 0 cells = true)
  (inside : ∀ x ∈ cells, x.1 < 2112)
include canonical inside

/-- R54: the cells of a class, counted over the map. -/
theorem classCount_eq (a b : Nat) {c : Nat} (nonzero : 1 ≤ c) : classCount cells a b c =
    ((List.range 2112).filter fun k =>
      decide ((sparseGet 0 cells k).toNat = c ∧ a ≤ k % 264 ∧ k % 264 < b)).length := by
  have counted := countP_sparse 0 canonical inside
    (fun k v => v.toNat == c && decide (a ≤ k % 264) && decide (k % 264 < b)) fun k => by
      have : (0 == c) = false := by rw [beq_eq_false_iff_ne]; omega
      simp [this]
  refine counted.trans (congrArg List.length (List.filter_congr fun k _ => ?_))
  rw [Bool.eq_iff_iff]
  simp only [Bool.and_eq_true, beq_iff_eq, decide_eq_true_eq, and_assoc]

theorem passesCount_iff (g a b n : Nat) : passesCount words cells g a b n = true ↔
    ∀ c, 1 ≤ c → c ≤ 15 → rowAllowance words g c = 255
      ∨ ((List.range 2112).filter fun k =>
          decide ((sparseGet 0 cells k).toNat = c ∧ a ≤ k % 264 ∧ k % 264 < b)).length
        ≤ rowAllowance words g c * n / 2 := by
  rw [passesCount, List.all_eq_true]
  simp only [List.mem_range'_1, Bool.or_eq_true, beq_iff_eq, decide_eq_true_eq]
  constructor
  · intro all c low high
    rw [← classCount_eq canonical inside a b low]
    exact all c ⟨low, by omega⟩
  · rintro all c ⟨low, high⟩
    rw [classCount_eq canonical inside a b low]
    exact all c low (by omega)

theorem passesEndZone_iff (g a b : Nat) : passesEndZone words cells g a b = true ↔
    ∀ k c, k < 2112 → (sparseGet 0 cells k).toNat = c → 1 ≤ c →
      (readWord words (rowBase g + 9)).getLsbD c = true →
      ¬ (a ≤ k % 264 ∧ k % 264 < min (a + rowEndZone words g) b)
        ∧ ¬ (max (b - rowEndZone words g) a ≤ k % 264 ∧ k % 264 < b) := by
  rw [passesEndZone, List.all_eq_true]
  simp only [Bool.not_eq_true', rowEndClass, Bool.and_eq_false_iff, Bool.or_eq_false_iff, bne_eq_false_iff_eq,
    decide_eq_false_iff_not]
  constructor
  · rintro all k c - rfl nonzero listed
    have listedCell : (k, sparseGet 0 cells k) ∈ cells := (mem_sparse 0 canonical k _).2 ⟨rfl, fun zero => by
      rw [zero] at nonzero; exact absurd nonzero (by decide)⟩
    obtain (zero | unlisted) | outside := all _ listedCell
    · dsimp only at zero; omega
    · rw [unlisted] at listed; cases listed
    · dsimp only at outside; omega
  · rintro all ⟨k, v⟩ member
    obtain ⟨read, nonzero⟩ := (mem_sparse 0 canonical k v).1 member
    dsimp only
    by_cases listed : (readWord words (rowBase g + 9)).getLsbD v.toNat = true
    · have some : 1 ≤ v.toNat := Nat.one_le_iff_ne_zero.2 fun zero => nonzero (BitVec.eq_of_toNat_eq zero)
      have outside := all k v.toNat (inside _ member) (by rw [read]) some listed
      right; omega
    · exact .inl (.inr (Bool.eq_false_iff.2 listed))

end

theorem rowAllowance_eq (words : List (Nat × Word)) (r c : Nat) : rowAllowance words r c =
    if c % 2 = 1 then ((readWord words (rowBase r + (c + 1) / 2)).extractLsb' 8 8).toNat
    else ((readWord words (rowBase r + c / 2)).extractLsb' 0 8).toNat := by
  unfold rowAllowance
  dsimp only
  split
  · rfl
  · rw [show (c + 1) / 2 = c / 2 by omega]

/-- R57: the first of the eight rows with a property. -/
theorem find_firstRow (p : Nat → Bool) (g : Nat) : (List.range' 1 8).find? p = .some g ↔
    1 ≤ g ∧ g ≤ 8 ∧ p g = true ∧ ∀ r, 1 ≤ r → r < g → ¬ p r = true := by
  rw [List.find?_range'_eq_some]
  simp only [List.mem_range'_1, Bool.not_eq_true', Bool.not_eq_true]
  constructor
  · rintro ⟨holds, ⟨low, high⟩, first⟩; exact ⟨low, by omega, holds, first⟩
  · rintro ⟨low, high, holds, first⟩; exact ⟨holds, ⟨low, by omega⟩, first⟩

/-- Settles O33: a row passes exactly when its three tests do, read over the cells of the map. -/
theorem computedGradeIsTheFirstRowPassed : Obligations.ComputedGradeIsTheFirstRowPassed := by
  intro words cells i j g canonical inside _ _ a b count word allowance zone passes
  have passes_iff (r : Nat) : (rowEnabled words r && passesCount words cells r a b (j - i)
      && passesEndZone words cells r a b) = true ↔ passes r := by
    rw [Bool.and_eq_true, Bool.and_eq_true, and_assoc, rowEnabled_iff, passesCount_iff canonical inside,
      passesEndZone_iff canonical inside]
    simp only [rowAllowance_eq]
    exact Iff.rfl
  show (List.range' 1 8).find? (fun r => rowEnabled words r && passesCount words cells r a b (j - i)
    && passesEndZone words cells r a b) = .some g ↔ _
  rw [find_firstRow]
  simp only [passes_iff]

end Sys2Proof.Proofs
end

section
/-! SUPPORT. Grader marks: their judgement, replies and effects (chapter 4). -/

namespace Sys2Proof.Proofs

open Sys2Proof Sys2Proof.Machine

variable {s : State} {lug : LugSeq} {p : Port} {f : Frame} {rest : List (Port × Frame)}

/-! ### What an offer leaves of a slot -/

theorem slotAt_congr (s : State) {l lug : LugSeq} (same : l.toNat % 64 = lug.toNat % 64) :
    slotAt s l = slotAt s lug := by
  unfold slotAt; congr 1

/-- A slot's change that keeps a value keeps it at every slot. -/
theorem slotAt_updSlot_kept {α : Type} (g : Slot → α) {h : Slot → Slot} (kept : ∀ sl, g (h sl) = g sl) (s : State)
    (lug l : LugSeq) : g (slotAt (updSlot s lug h) l) = g (slotAt s l) := by
  by_cases same : l.toNat % 64 = lug.toNat % 64
  · rw [slotAt_congr _ same, slotAt_congr s same, slotAt_updSlot_same, kept]
  · rw [slotAt_updSlot_other s h same]

/-- The fields of a slot that a reply to its mark carries (R79). -/
def repliedFields (sl : Slot) : Byte × List Nat := (sl.revision, sl.cuts)

theorem unFault_replied (sl : Slot) : repliedFields (unFault sl) = repliedFields sl := by
  rw [unFault_eq]; rfl

theorem offerFull_replied (s : State) (lug l : LugSeq) :
    repliedFields (slotAt (offerFull s lug) l) = repliedFields (slotAt s l) := by
  unfold offerFull
  split
  · exact slotAt_updSlot_kept repliedFields
      (h := fun sl => { sl with optState := .skipped, cause := .some .skipped }) (fun _ => rfl) s lug l
  all_goals rfl

theorem judgeOffer_replied (s : State) (lug l : LugSeq) :
    repliedFields (slotAt (judgeOffer s lug) l) = repliedFields (slotAt s l) := by
  by_cases turned : offerTurned s lug
  · rw [judgeOffer_turned turned]
  · rw [judgeOffer_taken turned]
    have written := slotAt_updSlot_kept repliedFields unFault_replied s lug l
    split
    · exact (offerFull_replied _ lug l).trans written
    · rw [joinQueue_eq]
      exact slotAt_updSlot_kept repliedFields
        (h := fun sl => { sl with
          optState := if offeredState (slotAt s lug) = .none then .waiting else offeredState (slotAt s lug) })
        (fun _ => rfl) s lug l

theorem startJob_replied (s : State) (l : LugSeq) :
    repliedFields (slotAt (startJob s) l) = repliedFields (slotAt s l) := by
  unfold startJob
  split
  · rw [slotAt_of_ring (askJobWord_touches _ .ring (by decide))]
    exact slotAt_updSlot_kept repliedFields (by intro; rfl) _ _ l
  · rfl

/-- R45: an offer leaves the revision and the cut list of every slot. -/
theorem offerLug_replied (s : State) (lug l : LugSeq) :
    repliedFields (slotAt (offerLug s lug) l) = repliedFields (slotAt s l) :=
  (startJob_replied _ l).trans (judgeOffer_replied s lug l)

/-! ### Taking a mark (R70, R71) -/

/-- Taking the head of the MARK queue leaves its rest. -/
theorem popRx_mark (h : s.lu.markQ = (p, f) :: rest) : popRx s .mark = markTaken s rest := by
  simp only [popRx, markTaken, State.updLu, setRxQueue, rxQueue, h, List.tail_cons]

theorem takeMarkIf_head {test : Frame → Bool} (k : State → Port → Frame → State) (queue : s.lu.markQ = (p, f) :: rest)
    (cls : frameClass f = 8) (passes : test f = true) : takeMarkIf test k s = k (markTaken s rest) p f := by
  rw [takeMarkIf, queue]
  dsimp only
  rw [if_pos ⟨cls, passes⟩, popRx_mark queue]

/-- A mark of its kind is taken from its queue and judged. -/
theorem takeMarkIf_waiting {kind : Nat → Bool} (k : State → Port → Frame → State) (h : MarkWaiting s p f rest)
    (ofKind : kind (num8 f.body 0) = true) :
    taken s (takeMarkIf (wholeMark kind) k) = .next (k (markTaken s rest) p f) := by
  obtain ⟨up, queue, cls, long⟩ := h
  rw [taken_next s _ up, takeMarkIf_head k queue cls]
  rw [wholeMark, decide_eq_true long]
  exact ofKind

/-- R70: the command of a mark's kind takes it, whatever its effect when accepted. -/
theorem takeMark_of_kind {i : Instr} (h : MarkWaiting s p f rest)
    (ofKind : i = .gradeMark ∧ num8 f.body 0 = 1 ∨ i = .cutMark ∧ num8 f.body 0 = 2
      ∨ i = .rejectMark ∧ num8 f.body 0 = 3 ∨ i = .clearMark ∧ num8 f.body 0 = 4
      ∨ i = .badMarkKind ∧ (num8 f.body 0 = 0 ∨ 4 < num8 f.body 0)) :
    ∃ effect : State → State, exec i s = .next (takeMark (markTaken s rest) p f effect) := by
  obtain ⟨rfl, kind⟩ | ⟨rfl, kind⟩ | ⟨rfl, kind⟩ | ⟨rfl, kind⟩ | ⟨rfl, kind⟩ := ofKind
  · exact ⟨_, takeMarkIf_waiting (kind := (· == 1)) _ h (by rw [kind]; rfl)⟩
  · exact ⟨_, takeMarkIf_waiting (kind := (· == 2)) _ h (by rw [kind]; rfl)⟩
  · exact ⟨_, takeMarkIf_waiting (kind := (· == 3)) _ h (by rw [kind]; rfl)⟩
  · exact ⟨_, takeMarkIf_waiting (kind := (· == 4)) _ h (by rw [kind]; rfl)⟩
  · exact ⟨_, takeMarkIf_waiting (kind := fun k => k == 0 || decide (4 < k)) _ h (by simpa using kind)⟩

/-! ### Judgement (R72, Table 4-2) -/

theorem badMark_iff (kind arg : Nat) : badMark kind arg = true ↔
    kind = 0 ∨ 4 < kind ∨ kind = 1 ∧ (arg < 1 ∨ 8 < arg) ∨ kind = 2 ∧ 263 < arg := by
  unfold badMark
  split
  · simp only [Bool.or_eq_true, decide_eq_true_eq]; omega
  · split
    · simp only [decide_eq_true_eq]; omega
    · simp only [Bool.and_eq_true, bne_iff_ne]; omega

theorem judgeMark_unknown (beyond : s.settings.dSort < offset s f.tag) : judgeMark s f = .unknownLug := if_pos beyond

section
variable (live : offset s f.tag ≤ s.settings.dSort)
include live

theorem judgeMark_late (late : s.settings.dLock ≤ offset s f.tag) : judgeMark s f = .late :=
  (if_neg (Nat.not_lt.2 live)).trans (if_pos late)

variable (unlocked : offset s f.tag < s.settings.dLock)
include unlocked

theorem judgeMark_noBoard (without : (slotAt s f.tag).board ≠ .present ∨ (slotAt s f.tag).origin ≠ .run) :
    judgeMark s f = .noBoard :=
  (if_neg (Nat.not_lt.2 live)).trans ((if_neg (Nat.not_le.2 unlocked)).trans (if_pos without))

variable (present : (slotAt s f.tag).board = .present) (run : (slotAt s f.tag).origin = .run)
include present run

/-- Table 4-2: past the first three conditions the mark itself and the cut list decide. -/
theorem judgeMark_board : judgeMark s f = if badMark (markKind f) (markArg f) then .badMark
    else if markKind f = 2 ∧ 4 ≤ (slotAt s f.tag).cuts.length then .full else .accepted :=
  (if_neg (Nat.not_lt.2 live)).trans ((if_neg (Nat.not_le.2 unlocked)).trans (if_neg (by simp [present, run])))

end

/-! ### Replies (R79, R80) -/

/-- R79, R80: what a reply leaves: the frame queued, the mark counted and reported. -/
def marked (s : State) (p : Port) (f : Frame) (r : MarkReply) (kind arg : Nat) (rev : Byte) (cuts : Nat)
    (counts : MarkCounts) : State :=
  { enqueue s p (.frame 1 (makeFrame 9 s.settings.ownAddress (frameOrigin f) f.tag
      ([byte (markReplyCode r), byte kind] ++ be16n arg ++ [rev, byte cuts]))) with
    mh := counts
    tu := { s.tu with current := s.tu.current.add (replyField r) 1 } }

/-- R79, R80: queuing a reply touches neither the mark counters nor the tally. -/
theorem queueMarkReply_counted (s : State) (p : Port) (f : Frame) (r : MarkReply) (kind arg : Nat) (rev : Byte)
    (cuts : Nat) (g : MarkCounts → MarkCounts) :
    ((queueMarkReply s p f r kind arg rev cuts).updMh g).report [(replyField r, 1)]
      = marked s p f r kind arg rev cuts (g s.mh) := by
  have kept := enqueue_touches s p (.frame 1 (ownFrame s 9 (frameOrigin f) f.tag
    ([byte (markReplyCode r), byte kind] ++ be16n arg ++ [rev, byte cuts])))
  have mh := kept .mh (by decide)
  have tu := kept .tu (by decide)
  simp only [Block.same] at mh tu
  simp only [queueMarkReply, State.report, State.updMh, State.updTu, mh, tu]
  rfl

theorem replyMark_unknown (s : State) (p : Port) (f : Frame) : replyMark s p f .unknownLug =
    marked s p f .unknownLug (markKind f) (markArg f) 0 0 { s.mh with unknownLug := satInc s.mh.unknownLug } :=
  queueMarkReply_counted s p f _ _ _ _ _ _

/-- R79: the reply to a live lug's mark carries its slot's revision and cut count. -/
theorem replyMark_live (s : State) (p : Port) (f : Frame) {r : MarkReply} (live : r ≠ .unknownLug) :
    replyMark s p f r = marked s p f r (markKind f) (markArg f) (slotAt s f.tag).revision
      (slotAt s f.tag).cuts.length (s.mh.countReply (markKind f) r) := by
  unfold replyMark
  rw [bne_iff_ne.2 live]
  exact queueMarkReply_counted s p f r _ _ _ _ _

/-- R73: a refused mark has no effect. -/
theorem takeMark_refused {effect : State → State} {r : MarkReply} (judged : judgeMark s f = r)
    (refused : r ≠ .accepted) :
    takeMark s p f effect = replyMark s p f r := by
  rw [takeMark, judged]
  exact congrArg (fun t => replyMark t p f r) (if_neg refused)

/-- Settles O34: one clause of `judgeMark` for each reply, on the state with the mark taken. -/
theorem marksRefusedChangeNoSlot : Obligations.MarksRefusedChangeNoSlot := by
  intro s p f rest i waiting kind arg ofKind off sl n live open_ board bad answered
  obtain ⟨effect, meaning⟩ := takeMark_of_kind waiting ofKind
  have refused {r : MarkReply} (judged : judgeMark (markTaken s rest) f = r) (other : r ≠ .accepted) :
      exec i s = .next (replyMark (markTaken s rest) p f r) := by rw [meaning, takeMark_refused judged other]
  refine ⟨fun beyond => ?_, fun near late => ?_, fun ⟨near, unlocked⟩ without => ?_,
    fun ⟨⟨near, unlocked⟩, present, run⟩ isBad => ?_, fun ⟨⟨near, unlocked⟩, present, run⟩ good cut full => ?_⟩
  · rw [refused (judgeMark_unknown (s := markTaken s rest) (Nat.not_le.1 beyond)) (by decide), replyMark_unknown]; rfl
  · rw [refused (judgeMark_late (s := markTaken s rest) near late) (by decide), replyMark_live _ _ _ (by decide)]; rfl
  · rw [refused (judgeMark_noBoard (s := markTaken s rest) near unlocked without) (by decide),
      replyMark_live _ _ _ (by decide)]
    rfl
  · have judged := judgeMark_board (s := markTaken s rest) near unlocked present run
    rw [if_pos (c := badMark (markKind f) (markArg f) = true) ((badMark_iff kind arg).2 isBad)] at judged
    rw [refused judged (by decide), replyMark_live _ _ _ (by decide)]; rfl
  · have judged := judgeMark_board (s := markTaken s rest) near unlocked present run
    rw [if_neg (c := badMark (markKind f) (markArg f) = true) (mt (badMark_iff kind arg).1 good),
      if_pos ⟨cut, full⟩] at judged
    rw [refused judged (by decide), replyMark_live _ _ _ (by decide)]; rfl

/-! ### Accepted marks (R74 to R78) -/

section
variable (waiting : MarkWaiting s p f rest) (live : offset s f.tag ≤ s.settings.dSort)
  (unlocked : offset s f.tag < s.settings.dLock) (present : (slotAt s f.tag).board = .present)
  (run : (slotAt s f.tag).origin = .run)
include live unlocked present run

theorem judgeMark_accepted (good : ¬ (num8 f.body 0 = 0 ∨ 4 < num8 f.body 0
      ∨ num8 f.body 0 = 1 ∧ (num16 f.body 1 < 1 ∨ 8 < num16 f.body 1) ∨ num8 f.body 0 = 2 ∧ 263 < num16 f.body 1))
    (room : num8 f.body 0 = 2 → (slotAt s f.tag).cuts.length < 4) : judgeMark (markTaken s rest) f = .accepted := by
  refine (judgeMark_board (s := markTaken s rest) live unlocked present run).trans ?_
  rw [if_neg (c := badMark (markKind f) (markArg f) = true) (mt (badMark_iff _ _).1 good)]
  exact if_neg fun ⟨cut, full⟩ => absurd (room cut) (Nat.not_lt.2 full)

end

/-- R79, R80: an accepted mark is answered from the slot its effect leaves; the effect touches neither the settings,
the mark counters nor the tally. -/
theorem takeMark_accepted {effect : State → State} {rev : Byte} {cuts : List Nat} {counts : MarkCounts}
    (counted : s.mh.countReply (markKind f) .accepted = counts) (judged : judgeMark s f = .accepted)
    (touches : unchangedBut [.ring, .opt, .tm] s (effect s))
    (replied : repliedFields (slotAt (effect s) f.tag) = (rev, cuts)) :
    takeMark s p f effect = { enqueue (effect s) p (.frame 1 (makeFrame 9 s.settings.ownAddress (frameOrigin f) f.tag
        ([0, byte (markKind f)] ++ be16n (markArg f) ++ [rev, byte cuts.length]))) with
      mh := counts
      tu := { s.tu with current := s.tu.current.add .marksAccepted 1 } } := by
  subst counted
  have settings : (effect s).settings = s.settings := touches .settings (by decide)
  have mh : (effect s).mh = s.mh := touches .mh (by decide)
  have tu : (effect s).tu = s.tu := touches .tu (by decide)
  obtain ⟨rfl, rfl⟩ := Prod.mk.inj replied
  have taken : takeMark s p f effect = replyMark (effect s) p f .accepted := by
    rw [takeMark, judged]
    exact congrArg (fun t => replyMark t p f .accepted) (if_pos rfl)
  rw [taken, replyMark_live _ p f (by decide), marked, settings, mh, tu]
  rfl

theorem markState_eq (o : OptState) : markState o = if o = .decided then .stale else o := by cases o <;> rfl

theorem markOffers_iff (sl : Slot) : markOffers sl = true ↔ sl.optState = .none ∧ sl.scan ≠ .some .opened
    ∨ sl.optState = .decided ∨ sl.optState = .stale ∨ sl.optState = .fault := by
  unfold markOffers
  cases sl.optState <;> simp

/-- R75, Table 4-3: a changed slot of clear reject flag: a decision gone stale, and an offer. -/
theorem applyUnrejected_setSlot (s : State) (lug : LugSeq) (sl : Slot) : applyUnrejected (setSlot s lug sl) lug =
    if markOffers sl then
      offerLug (setSlot s lug { sl with optState := if sl.optState = .decided then .stale else sl.optState }) lug
    else setSlot s lug { sl with optState := if sl.optState = .decided then .stale else sl.optState } := by
  rw [applyUnrejected, slotAt_setSlot_same, updSlot, slotAt_setSlot_same, setSlot_setSlot, markState_eq]

theorem applyUnrejected_replied (s : State) (lug l : LugSeq) :
    repliedFields (slotAt (applyUnrejected s lug) l) = repliedFields (slotAt s l) := by
  have written := slotAt_updSlot_kept repliedFields (h := fun sl => { sl with optState := markState sl.optState })
    (fun _ => rfl) s lug l
  unfold applyUnrejected
  dsimp only
  split
  · exact (offerLug_replied _ lug l).trans written
  · exact written

/-- R74 to R76, Table 4-3: what a GRADE or CUT makes of a slot whose mark fields it has changed. -/
def gradeCutEffect (s : State) (lug : LugSeq) (changed : Slot) : State :=
  let sl := slotAt s lug
  if sl.reject then
    setSlot s lug { changed with decision := sl.decision.map fun d => { d with revision := sl.revision + 1 } }
  else
    let s1 := setSlot s lug { changed with optState := if sl.optState = .decided then .stale else sl.optState }
    if sl.optState = .none ∧ sl.scan ≠ .some .opened ∨ sl.optState = .decided ∨ sl.optState = .stale
        ∨ sl.optState = .fault then offerLug s1 lug
    else s1

/-- R74 to R76: a GRADE or CUT changes the mark fields and nothing else that its effect reads. -/
theorem applyGradeCut_eq (s : State) (lug : LugSeq) {g : Slot → Slot}
    (keeps : ∀ sl, ((g sl).optState, (g sl).scan, (g sl).decision, (g sl).revision)
      = (sl.optState, sl.scan, sl.decision, sl.revision)) :
    applyGradeCut s lug g =
      gradeCutEffect s lug (g { slotAt s lug with revision := (slotAt s lug).revision + 1 }) := by
  have kept := keeps { slotAt s lug with revision := (slotAt s lug).revision + 1 }
  simp only [Prod.mk.injEq] at kept
  obtain ⟨optState, scan, decision, revision⟩ := kept
  unfold applyGradeCut gradeCutEffect
  dsimp only
  rw [updSlot]
  split
  · rw [restampReject, updSlot, slotAt_setSlot_same, setSlot_setSlot, decision, revision]
  · rw [applyUnrejected_setSlot]
    simp only [markOffers_iff, optState, scan]

theorem restampReject_replied (s : State) (lug l : LugSeq) :
    repliedFields (slotAt (restampReject s lug) l) = repliedFields (slotAt s l) :=
  slotAt_updSlot_kept repliedFields
    (h := fun sl => { sl with decision := sl.decision.map fun d => { d with revision := sl.revision } })
    (fun _ => rfl) s lug l

theorem applyGradeCut_replied (s : State) (lug : LugSeq) (g : Slot → Slot) :
    repliedFields (slotAt (applyGradeCut s lug g) lug)
      = repliedFields (g { slotAt s lug with revision := (slotAt s lug).revision + 1 }) := by
  unfold applyGradeCut
  dsimp only
  split
  · exact (restampReject_replied _ lug lug).trans (congrArg repliedFields (slotAt_updSlot_same s lug _))
  · exact (applyUnrejected_replied _ lug lug).trans (congrArg repliedFields (slotAt_updSlot_same s lug _))

theorem applyGrade_eq (s : State) (lug : LugSeq) (cap : Nat) : applyGrade s lug cap =
    gradeCutEffect s lug { slotAt s lug with revision := (slotAt s lug).revision + 1, cap := .some cap } :=
  applyGradeCut_eq s lug (g := fun sl => { sl with cap := .some cap }) fun _ => rfl

theorem applyGrade_replied (s : State) (lug : LugSeq) (cap : Nat) :
    repliedFields (slotAt (applyGrade s lug cap) lug) = ((slotAt s lug).revision + 1, (slotAt s lug).cuts) :=
  applyGradeCut_replied s lug _

theorem applyCut_eq (s : State) (lug : LugSeq) (station : Nat) : applyCut s lug station =
    gradeCutEffect s lug { slotAt s lug with
      revision := (slotAt s lug).revision + 1, cuts := (slotAt s lug).cuts ++ [station] } :=
  applyGradeCut_eq s lug (g := fun sl => { sl with cuts := sl.cuts ++ [station] }) fun _ => rfl

theorem applyCut_replied (s : State) (lug : LugSeq) (station : Nat) :
    repliedFields (slotAt (applyCut s lug station) lug)
      = ((slotAt s lug).revision + 1, (slotAt s lug).cuts ++ [station]) :=
  applyGradeCut_replied s lug _

/-- Settles O35: both kinds are `applyGradeCut`, whose effect leaves the revision and cuts the reply carries. -/
theorem gradeAndCutMarksAccepted : Obligations.GradeAndCutMarksAccepted := by
  intro s p f rest waiting live unlocked present run kind arg sl offered effect answered
  refine ⟨fun grade low high => ?_, fun cut inside room => ?_⟩
  · have isGrade : num8 f.body 0 = 1 := grade
    have judged := judgeMark_accepted (rest := rest) live unlocked present run (by omega) (by omega)
    have meaning : exec .gradeMark s = .next (takeMark (markTaken s rest) p f fun t => applyGrade t f.tag arg) :=
      takeMarkIf_waiting (kind := (· == 1)) _ waiting (by rw [isGrade]; rfl)
    have counted : s.mh.countReply (markKind f) .accepted
        = { s.mh with acceptedGrade := satInc s.mh.acceptedGrade } := by rw [show markKind f = 1 from grade]; rfl
    rw [meaning, takeMark_accepted (s := markTaken s rest) counted judged (applyGrade_touches _ _ _)
      (applyGrade_replied _ _ _), applyGrade_eq]
    rfl
  · have isCut : num8 f.body 0 = 2 := cut
    have inBoard : num16 f.body 1 ≤ 263 := inside
    have judged := judgeMark_accepted (rest := rest) live unlocked present run (by omega) fun _ => room
    have meaning : exec .cutMark s = .next (takeMark (markTaken s rest) p f fun t => applyCut t f.tag arg) :=
      takeMarkIf_waiting (kind := (· == 2)) _ waiting (by rw [isCut]; rfl)
    have counted : s.mh.countReply (markKind f) .accepted
        = { s.mh with acceptedCut := satInc s.mh.acceptedCut } := by rw [show markKind f = 2 from cut]; rfl
    rw [meaning, takeMark_accepted (s := markTaken s rest) counted judged (applyCut_touches _ _ _)
      (applyCut_replied _ _ _), applyCut_eq, List.length_append]
    rfl

/-! ### REJECT and CLEAR (R77, R78) -/

theorem filter_bne (l : List LugSeq) (lug : LugSeq) : l.filter (· != lug) = l.filter (· ≠ lug) :=
  List.filter_congr fun _ _ => by rw [bne, Bool.beq_eq_decide_eq, decide_not]

/-- R74, R77: a slot at the mark that rejects it. -/
def rejectedSlot (sl : Slot) : Slot :=
  { sl with
    revision := sl.revision + 1, reject := true, optState := .decided
    decision := .some (rejectDecision { sl with revision := sl.revision + 1, reject := true }) }

theorem slotAt_applyReject (s : State) (lug : LugSeq) :
    slotAt (applyReject s lug) lug = rejectedSlot (slotAt s lug) := slotAt_updSlot_same s lug rejectedSlot

/-- Settles O36: the REJECT decision is written at the revision the mark gives. -/
theorem rejectMarksAccepted : Obligations.RejectMarksAccepted := by
  intro s p f rest waiting live unlocked present run reject sl
  have judged := judgeMark_accepted (rest := rest) live unlocked present run (by omega) (by omega)
  have meaning : exec .rejectMark s = .next (takeMark (markTaken s rest) p f fun t => applyReject t f.tag) :=
    takeMarkIf_waiting (kind := (· == 3)) _ waiting (by rw [reject]; rfl)
  have replied : repliedFields (slotAt (applyReject (markTaken s rest) f.tag) f.tag) = (sl.revision + 1, sl.cuts) :=
    congrArg repliedFields (slotAt_applyReject (markTaken s rest) f.tag)
  rw [meaning, takeMark_accepted rfl judged (applyReject_touches _ _ |>.mono (by decide)) replied,
    show markKind f = 3 from reject, ← filter_bne]
  rfl

/-- R75, R78, Table 4-3: what a CLEAR makes of a slot. -/
def clearEffect (s : State) (lug : LugSeq) : State :=
  let sl := slotAt s lug
  let cleared : Slot := { sl with revision := sl.revision + 1, cap := .none, cuts := [], reject := false }
  if sl.reject = false then
    if sl.optState = .decided then offerLug (setSlot s lug { cleared with optState := .stale }) lug
    else if sl.optState = .none ∧ sl.scan ≠ .some .opened ∨ sl.optState = .stale ∨ sl.optState = .fault then
      offerLug (setSlot s lug cleared) lug
    else setSlot s lug cleared
  else if sl.cause = .some .partialScan then setSlot s lug { cleared with decision := .none, optState := .skipped }
  else if sl.scan = .some .opened then
    setSlot s lug { cleared with decision := .none, optState := .none, cause := .none }
  else if isJobLug s lug then setSlot s lug { cleared with decision := .none, optState := .running, cause := .none }
  else offerLug (setSlot s lug { cleared with decision := .none, optState := .none, cause := .none }) lug

theorem applyClear_eq (s : State) (lug : LugSeq) : applyClear s lug = clearEffect s lug := by
  unfold applyClear clearEffect
  dsimp only
  rw [updSlot]
  cases rejected : (slotAt s lug).reject with
  | false =>
    rw [if_neg Bool.false_ne_true, if_pos rfl, applyUnrejected_setSlot]
    simp only [markOffers_iff]
    by_cases decided : (slotAt s lug).optState = .decided
    · simp [decided]
    · simp [decided]
  | true =>
    rw [if_pos rfl, if_neg (by decide), clearReject]
    rw [updSlot_updSlot, updSlot_updSlot, updSlot_updSlot]
    simp only [updSlot, slotAt_setSlot_same, setSlot_setSlot]
    rfl

theorem clearEffect_replied (s : State) (lug : LugSeq) :
    repliedFields (slotAt (clearEffect s lug) lug) = ((slotAt s lug).revision + 1, []) := by
  have written (sl : Slot) (h : repliedFields sl = ((slotAt s lug).revision + 1, [])) :
      repliedFields (slotAt (setSlot s lug sl) lug) = ((slotAt s lug).revision + 1, []) := by
    rw [slotAt_setSlot_same, h]
  unfold clearEffect
  dsimp only
  split
  · split
    · rw [offerLug_replied]; exact written _ rfl
    · split
      · rw [offerLug_replied]; exact written _ rfl
      · exact written _ rfl
  · split
    · exact written _ rfl
    · split
      · exact written _ rfl
      · split
        · exact written _ rfl
        · rw [offerLug_replied]; exact written _ rfl

/-- Settles O37: the reply is the same in every case of the effect. -/
theorem clearMarksAccepted : Obligations.ClearMarksAccepted := by
  intro s p f rest waiting live unlocked present run clear _ sl cleared put effect
  have judged := judgeMark_accepted (rest := rest) live unlocked present run (by omega) (by omega)
  have meaning : exec .clearMark s = .next (takeMark (markTaken s rest) p f fun t => applyClear t f.tag) :=
    takeMarkIf_waiting (kind := (· == 4)) _ waiting (by rw [clear]; rfl)
  have made : applyClear (markTaken s rest) f.tag = effect := applyClear_eq _ _
  have replied : repliedFields (slotAt (applyClear (markTaken s rest) f.tag) f.tag) = (sl.revision + 1, []) := by
    rw [applyClear_eq]; exact clearEffect_replied _ _
  rw [meaning, takeMark_accepted rfl judged (applyClear_touches _ _) replied, made, show markKind f = 4 from clear]
  rfl

/-! ### Short and lost marks (R71, R81) -/

/-- Two bytes joined in a word come apart again. -/
theorem be16_append (b c : Byte) : be16 (b ++ c) = [b, c] := by
  have joined : (b ++ c : Word).toNat = b.toNat * 256 + c.toNat := by
    rw [BitVec.toNat_append, ← Nat.shiftLeft_add_eq_or_of_lt c.isLt, Nat.shiftLeft_eq]
  have := b.isLt
  have := c.isLt
  have high : (b ++ c : Word).extractLsb' 8 8 = b := by
    apply BitVec.eq_of_toNat_eq
    rw [BitVec.extractLsb'_toNat, joined, Nat.shiftRight_eq_div_pow]; omega
  have low : (b ++ c : Word).extractLsb' 0 8 = c := by
    apply BitVec.eq_of_toNat_eq
    rw [BitVec.extractLsb'_toNat, joined, Nat.shiftRight_eq_div_pow]; omega
  rw [be16, high, low]

/-- R71: the three bytes of a whole mark, read as kind and argument and written again. -/
theorem echo_whole {l : List Byte} (long : 3 ≤ l.length) : byte (num8 l 0) :: be16n (num16 l 1) = l.take 3 := by
  obtain _ | ⟨a, _ | ⟨b, _ | ⟨c, tail⟩⟩⟩ := l
  · exact absurd long (by decide)
  · exact absurd long (by simp)
  · exact absurd long (by simp)
  · have kind : byte (num8 (a :: b :: c :: tail) 0) = a := by simp [byte, num8, byteAt]
    have arg : be16n (num16 (a :: b :: c :: tail) 1) = be16 (b ++ c) := by
      simp [be16n, num16, word16, byteAt]
    rw [kind, arg, be16_append]
    rfl

theorem takeMarkOverflow_cons (handed : s.handed.markOverflows = (p, f) :: rest) : takeMarkOverflow s =
    answerDropped (s.updHanded fun h => { h with markOverflows := rest }) p f := by
  rw [takeMarkOverflow, handed]

/-- Settles O38: a mark too short is only counted; a lost one is answered DROPPED with its own three bytes, or 0. -/
theorem shortAndDroppedMarks : Obligations.ShortAndDroppedMarks := by
  refine ⟨fun s p f rest up queue cls short => ?_, fun s p f rest up handed => ?_⟩
  · rw [exec_released _ up, effect]
    exact congrArg Host.Outcome.next (takeMarkIf_head _ queue cls (decide_eq_true short))
  · intro echo
    rw [exec_released _ up, effect, takeMarkOverflow_cons handed, answerDropped]
    dsimp only
    have answered := queueMarkReply_counted (s.updHanded fun h => { h with markOverflows := rest }) p f .dropped
    by_cases whole : 3 ≤ f.body.length
    · rw [decide_eq_true whole, if_pos rfl, if_pos rfl, answered]
      have echoed : echo = byte (num8 f.body 0) :: be16n (num16 f.body 1) :=
        (if_pos whole).trans (echo_whole whole).symm
      rw [echoed]
      rfl
    · rw [decide_eq_false whole, if_neg Bool.false_ne_true, if_neg Bool.false_ne_true, answered, marked,
        show be16n 0 = [0, 0] by decide, show echo = [0, 0, 0] from if_neg whole]
      rfl

end Sys2Proof.Proofs
end

section
/-! SUPPORT. Commitment and sorting: the cases of the lock, the commit actions and the deliveries (chapter 5). -/

namespace Sys2Proof.Proofs

open Sys2Proof Sys2Proof.Machine

variable {s : State} {lug : LugSeq}

/-! ### The cases of Table 5-1 (R86 to R88) -/

section
variable {mode : LineMode} {sl : Slot}

theorem lockCase_stop (stop : sl.origin = .stop) : lockCase mode sl = .empty := if_pos stop

theorem lockCase_bypass (bypassed : sl.origin = .bypass ∨ sl.origin = .run ∧ mode = .bypass) :
    lockCase mode sl = .bypass := by
  have moving : sl.origin ≠ .stop := by
    obtain h | ⟨h, -⟩ := bypassed <;> (rw [h]; decide)
  exact (if_neg moving).trans (if_pos (bypassed.imp id And.right))

variable (run : sl.origin = .run) (unbypassed : mode ≠ .bypass)
include run unbypassed

theorem lockCase_none (none : sl.board = .none) : lockCase mode sl = .empty :=
  (if_neg (by rw [run]; decide)).trans ((if_neg (by simp [run, unbypassed])).trans (if_pos none))

theorem lockCase_unscanned (unscanned : sl.board = .unscanned) : lockCase mode sl = .recycle sl.cause false :=
  (if_neg (by rw [run]; decide)).trans ((if_neg (by simp [run, unbypassed])).trans
    ((if_neg (by rw [unscanned]; decide)).trans (if_pos unscanned)))

variable (present : sl.board = .present)
include present

theorem lockCase_reject (reject : sl.reject = true) : lockCase mode sl = .reject :=
  (if_neg (by rw [run]; decide)).trans ((if_neg (by simp [run, unbypassed])).trans
    ((if_neg (by rw [present]; decide)).trans ((if_neg (by rw [present]; decide)).trans (if_pos reject))))

variable (unrejected : sl.reject = false)
include unrejected

/-- Table 5-1: past the marks the decision decides. -/
theorem lockCase_decision : lockCase mode sl = match sl.decision with
    | .none => .recycle (recycleCauseAtLock sl) false
    | .some d =>
      if d.body = .reject then .recycle (recycleCauseAtLock sl) false
      else if sl.optState = .decided ∧ d.revision = sl.revision then .stands d false
      else staleCommit sl d :=
  (if_neg (by rw [run]; decide)).trans ((if_neg (by simp [run, unbypassed])).trans
    ((if_neg (by rw [present]; decide)).trans ((if_neg (by rw [present]; decide)).trans
      (if_neg (by simp [unrejected])))))

theorem lockCase_undecided (undecided : sl.decision = .none) :
    lockCase mode sl = .recycle (recycleCauseAtLock sl) false := by
  rw [lockCase_decision run unbypassed present unrejected, undecided]

/-- R87, R88: a decision of the optimizer stands as it is, or by the stale commit rule. -/
theorem lockCase_decided {d : Decision} (decision : sl.decision = .some d) (made : d.body ≠ .reject) :
    lockCase mode sl = if sl.optState = .decided ∧ d.revision = sl.revision then .stands d false
      else staleCommit sl d := by
  rw [lockCase_decision run unbypassed present unrejected, decision]
  exact if_neg made

end

theorem cutConflict_true_iff (cuts : List Nat) (i j : Nat) :
    cutConflict cuts i j = true ↔ ∃ x ∈ cuts, 12 + 24 * i ≤ x ∧ x < 12 + 24 * j := by
  rw [cutConflict, List.any_eq_true]
  simp only [Bool.and_eq_true, decide_eq_true_eq]
  rfl

section
variable {sl : Slot} {d : Decision}

theorem staleCommit_cull (cull : d.body = .cull) : staleCommit sl d = .stands d true := by rw [staleCommit, cull]

variable {p : PieceData} (piece : d.body = .piece p)
include piece

theorem staleCommit_conflict (conflict : cutConflict sl.cuts p.i p.j = true) :
    staleCommit sl d = .recycle (.some .cutConflict) true := by
  rw [staleCommit, piece]
  exact if_pos conflict

variable (clear : ¬ cutConflict sl.cuts p.i p.j = true)
include clear

theorem staleCommit_stands (graded : ∀ c ∈ sl.cap, c ≤ p.final) : staleCommit sl d = .stands d true := by
  rw [staleCommit, piece]
  refine (if_neg clear).trans ?_
  cases cap : sl.cap with
  | none => rfl
  | some c => exact if_neg (Nat.not_lt.2 (graded c cap))

theorem staleCommit_regrade {c : Nat} (cap : sl.cap = .some c) (lower : p.final < c) :
    staleCommit sl d = .regrade (regraded d p c) := by
  rw [staleCommit, piece]
  refine (if_neg clear).trans ?_
  rw [cap]
  exact if_pos lower

end

/-! ### Taking a lock (R85) -/

theorem takeLock_cons {rest : List LugSeq} (handed : s.handed.locks = lug :: rest) :
    takeLock s = lockArrives (s.updHanded fun h => { h with locks := rest }) lug := by
  rw [takeLock, handed]

theorem lockArrives_held (flying : s.cu.inFlight ≠ .none) :
    lockArrives s lug = s.updCu fun c => { c with heldLocks := c.heldLocks ++ [lug] } :=
  if_pos (Option.isSome_iff_ne_none.2 flying)

theorem lockArrives_judged (free : s.cu.inFlight = .none) : lockArrives s lug = judgeLock s lug :=
  if_neg (by simp [free])

/-- R86: what a case of the lock does to a slot whose buffer is freed. -/
def lockEffect (s : State) (lug : LugSeq) : LockCase → State
  | .empty => s
  | .bypass => commitBypass s lug
  | .recycle cause stale => commitRecycle s lug cause stale
  | .reject => commitToCatch s lug .reject (slotAt s lug).decision false
  | .stands d stale => commitDecision s lug d stale
  | .regrade d => beginRegrade s lug d

theorem judgeLock_eq (s : State) (lug : LugSeq) : judgeLock s lug =
    lockEffect (freeBuffer s lug) lug (lockCase (freeBuffer s lug).ct.mode (slotAt (freeBuffer s lug) lug)) := by
  rfl

/-- R91: a cause that the slot already holds is not written anew. -/
theorem commitRecycle_kept (stale : Bool) : commitRecycle s lug (slotAt s lug).cause stale =
    writeCommit s lug { kind := .recycle, saws := .none, bin := .none, product := .none, cause := (slotAt s lug).cause }
      .none (plainFlags stale) := by
  have same : updSlot s lug (fun sl => { sl with cause := (slotAt s lug).cause }) = s := setSlot_self s lug
  rw [commitRecycle, same]

theorem commitDecision_piece {d : Decision} {p : PieceData} (piece : d.body = .piece p) (stale : Bool) :
    commitDecision s lug d stale = commitPiece s lug d p stale := by
  rw [commitDecision, piece]

theorem commitDecision_cull {d : Decision} (cull : d.body = .cull) (stale : Bool) :
    commitDecision s lug d stale = commitToCatch s lug .cull (.some d) stale := by
  rw [commitDecision, cull]

/-- R89: a lowered decision asks for the sort map word of its product through the active set. -/
theorem beginRegrade_asks {d : Decision} {p : PieceData} {sid : SetId} {e : MapEntry} (piece : d.body = .piece p)
    (active : s.tm.active = .some sid) (mapped : entryOf s.tm sid (sortKey p.product / 256) = .some e) :
    beginRegrade s lug d = requestCommit (s.updCu fun c => { c with inFlight := .some { lug := lug, decision := d } })
      (e.page * 256 + sortKey p.product % 256) := by
  have index : regradeIndex s d = .some (e.page * 256 + sortKey p.product % 256) := by
    unfold regradeIndex
    rw [piece, active]
    dsimp only
    rw [physOf, mapped]
    rfl
  rw [beginRegrade, index]

/-- Settles O39: the lock's case, then its effect, on the state with the buffer freed. -/
theorem lockArrivalCommitsByTheFirstCase : Obligations.LockArrivalCommitsByTheFirstCase := by
  intro s lug rest up handed s1 kept sl s2 commits caught recycles recycled judged bypassed boarded conflict
  have taken : exec .lockArrival s = .next (lockArrives s1 lug) := by
    rw [exec_released _ up, effect, takeLock_cons handed]; rfl
  have freed : freeBuffer s1 lug = s2 := freeBuffer_eq s1 lug
  have slot : slotAt s2 lug = sl := slotAt_setSlot_same s1 lug sl
  have cased (free : judged) {case : LockCase} (h : lockCase s.ct.mode sl = case) :
      exec .lockArrival s = .next (lockEffect s2 lug case) := by
    rw [taken, lockArrives_judged (s := s1) free, judgeLock_eq, freed, slot, ← h]; rfl
  refine ⟨fun flying => ?_, fun free stop => cased free (lockCase_stop stop), fun free bypass n at_n => ?_,
    fun free run unbypassed none => cased free (lockCase_none run unbypassed none),
    fun free run unbypassed unscanned => ?_, fun ⟨free, run, unbypassed, present⟩ reject => ?_,
    fun ⟨free, run, unbypassed, present⟩ unrejected undecided cause atLock => ?_, ?_⟩
  · rw [taken, lockArrives_held (s := s1) flying]; rfl
  · rw [cased free (lockCase_bypass bypass), at_n]; rfl
  · rw [cased free (lockCase_unscanned run unbypassed unscanned), lockEffect, ← slot, commitRecycle_kept]; rfl
  · rw [cased free (lockCase_reject run unbypassed present reject), lockEffect, slot]; rfl
  · have named : recycleCauseAtLock sl = .some cause := by
      unfold recycleCauseAtLock
      obtain ⟨skipped, held⟩ | ⟨fault, rfl⟩ | ⟨running | waiting | none, rfl⟩ := atLock
      · rw [skipped]; exact held
      · rw [fault]
      · rw [running]
      · rw [waiting]
      · rw [none]
    rw [cased free (lockCase_undecided run unbypassed present unrejected undecided), named, lockEffect, commitRecycle,
      updSlot, slot]
    rfl
  · intro d ⟨free, run, unbypassed, present⟩ unrejected decision stale
    have decided (made : d.body ≠ .reject) : exec .lockArrival s = .next (lockEffect s2 lug
        (if sl.optState = .decided ∧ d.revision = sl.revision then .stands d false else staleCommit sl d)) :=
      cased free (lockCase_decided run unbypassed present unrejected decision made)
    have fresh_or : sl.optState = .decided ∧ d.revision = sl.revision ∧ stale = false
        ∨ ¬ (sl.optState = .decided ∧ d.revision = sl.revision) ∧ stale = true := by
      by_cases current : sl.optState = .decided ∧ d.revision = sl.revision
      · exact .inl ⟨current.1, current.2, by simp [stale, current]⟩
      · exact .inr ⟨current, by simp only [stale, decide_eq_false current, Bool.not_false]⟩
    have isStale (h : stale = true) : ¬ (sl.optState = .decided ∧ d.revision = sl.revision) := by
      obtain ⟨_, _, fresh⟩ | ⟨gone, _⟩ := fresh_or
      · rw [h] at fresh; cases fresh
      · exact gone
    refine ⟨fun cull => ?_, fun p piece => ⟨fun old conflicting => ?_, fun stands => ?_, ?_⟩⟩
    · have made : d.body ≠ .reject := by rw [cull]; decide
      rw [decided made]
      obtain ⟨current, revision, fresh⟩ | ⟨gone, old⟩ := fresh_or
      · rw [if_pos ⟨current, revision⟩, fresh, lockEffect, commitDecision_cull cull]; rfl
      · rw [if_neg gone, staleCommit_cull cull, old, lockEffect, commitDecision_cull cull]; rfl
    · have made : d.body ≠ .reject := by rw [piece]; exact nofun
      rw [decided made, if_neg (isStale old), staleCommit_conflict piece ((cutConflict_true_iff _ _ _).2 conflicting),
        lockEffect, commitRecycle, updSlot, slot]
      rfl
    · have made : d.body ≠ .reject := by rw [piece]; exact nofun
      rw [decided made]
      obtain ⟨current, revision, fresh⟩ | ⟨gone, old⟩ := fresh_or
      · rw [if_pos ⟨current, revision⟩, fresh, lockEffect, commitDecision_piece piece]
      · obtain fresh | ⟨clear, graded⟩ := stands
        · rw [old] at fresh; cases fresh
        · rw [if_neg gone, staleCommit_stands piece (mt (cutConflict_true_iff _ _ _).1 clear) graded, old, lockEffect,
            commitDecision_piece piece]
    · intro c sid e old clear cap lower active product mapped
      have made : d.body ≠ .reject := by rw [piece]; exact nofun
      rw [decided made, if_neg (isStale old),
        staleCommit_regrade piece (mt (cutConflict_true_iff _ _ _).1 clear) cap lower, lockEffect,
        beginRegrade_asks (s := s2) (p := { p with final := c, product := product }) rfl active mapped]
      rfl

/-! ### The end of a commit in flight (R89) -/

theorem binsOfWord_eq (w : Word) : binsOfWord w =
    (if (w.extractLsb' 8 8).toNat < 48 then .some (w.extractLsb' 8 8).toNat else .none,
     if (w.extractLsb' 0 8).toNat < 48 then .some (w.extractLsb' 0 8).toNat else .none) := rfl

/-- R135, R138: the end of a read touches neither the Commit Unit nor a slot. -/
theorem endedRead_touches (s : State) (who : Requester) (i : Nat) :
    unchangedBut [.tm, .lu, .freeCount] s (endAccess (noteRead s who i)) :=
  ((noteRead_touches s who i).mono (by decide)).next (endAccess_touches _) (by decide)

/-- R89: with the bins read, the regraded decision is committed and what was held is taken. -/
theorem completeCommit_piece {fl : InFlight} {p : PieceData} {r : CheckResult} {chosen alternate : Option Nat}
    (bins : withBins fl.decision r = { fl.decision with
      body := .piece { p with chosen := chosen, alternate := alternate } }) :
    let d : Decision := { fl.decision with body := .piece { p with chosen := chosen, alternate := alternate } }
    completeCommit s fl r = takeHeldSwitch (takeHeldLocks s.cu.heldLocks (commitPiece
      (setSlot { s with cu := { s.cu with inFlight := .none, heldLocks := [] } } fl.lug
        { slotAt s fl.lug with decision := .some d }) fl.lug d { p with chosen := chosen, alternate := alternate }
      true)) := by
  rw [completeCommit, commitRegraded, bins]
  rfl

theorem withBins_word {d : Decision} {p : PieceData} {r : CheckResult} {w : Word} (piece : d.body = .piece p)
    (good : r = .clean w ∨ r = .single w) : withBins d r = { d with
      body := .piece { p with chosen := (binsOfWord w).1, alternate := (binsOfWord w).2 } } := by
  unfold withBins
  rw [piece]
  obtain rfl | rfl := good <;> rfl

theorem withBins_double {d : Decision} {p : PieceData} (piece : d.body = .piece p) :
    withBins d .double = { d with body := .piece { p with chosen := .some 0, alternate := .none } } := by
  unfold withBins
  rw [piece]

/-- Settles O40: the held locks are lock arrivals one after another, and the bins read are those of `withBins`. -/
theorem commitCompletionTakesTheBinsRead : Obligations.CommitCompletionTakesTheBinsRead := by
  refine ⟨fun s => ⟨rfl, fun lug rest => ⟨fun flying => if_pos (Option.isSome_iff_ne_none.2 flying),
    fun t up free arrives => ?_⟩, fun none => ?_, fun lug some => ?_⟩, ?_⟩
  · have arrived : exec .lockArrival { s with handed := { s.handed with locks := lug :: s.handed.locks } }
        = .next (lockArrives s lug) := by
      rw [exec_released _ (by exact up), effect, takeLock_cons (by rfl)]; rfl
    rw [arrived, lockArrives_judged free] at arrives
    cases arrives
    exact if_neg (by simp [free])
  · rw [takeHeldSwitch, none]
  · rw [takeHeldSwitch, some]; rfl
  · intro s a up access mine read
    have touched : unchangedBut [.tm, .lu, .freeCount] s read := endedRead_touches s .commit a.index
    have cu : read.cu = s.cu := touched .cu (by decide)
    have slot (l : LugSeq) : slotAt read l = slotAt s l := slotAt_of_ring (touched .ring (by decide)) l
    have meaning : exec .commitCompletion s = .next (if a.wanted then
        match read.cu.inFlight with
        | .some fl => completeCommit read fl (checkAt s a.index)
        | .none => read else read) := by
      rw [exec_released _ up, effect, endCommitRead, access]
      exact congrArg _ (if_pos mine)
    refine ⟨fun unwanted => by rw [meaning, if_neg (by simp [unwanted])], ?_⟩
    intro fl p wanted flying piece bin commits
    have completes : exec .commitCompletion s = .next (completeCommit read fl (checkAt s a.index)) := by
      rw [meaning, if_pos wanted, cu, flying]
    refine ⟨fun w good => ?_, fun bad => ?_⟩
    · rw [completes, completeCommit_piece (withBins_word piece good), cu, slot, binsOfWord_eq]
    · rw [completes, bad, completeCommit_piece (withBins_double piece), cu, slot]

end Sys2Proof.Proofs
end

section
/-! SUPPORT. What a commitment reserves and sends, and what a sort delivers (sections 5.3, 5.4, 5.7). -/

namespace Sys2Proof.Proofs

open Sys2Proof Sys2Proof.Machine

variable {s : State} {lug : LugSeq}

/-! ### DECISION frames (R92, R93, Table 11-4) -/

/-- Table 11-4: five flags in one byte, the first in bit 0. -/
theorem flagBits_eq (quick part stale diversion overQuota : Bool) :
    flagBits [quick, part, stale, diversion, overQuota] =
      BitVec.ofNat 8 ((if quick then 1 else 0) + (if part then 2 else 0) + (if stale then 4 else 0)
        + (if diversion then 8 else 0) + if overQuota then 16 else 0) := by
  revert quick part stale diversion overQuota; decide

theorem commitCounts_eq (c : Committed) (d : Option Decision) (fl : CommitFlags) : commitCounts c d fl =
    (if fl.stale then [(.staleCommits, 1)] else []) ++ (if fl.catchDiversion then [(.catchDiversions, 1)] else [])
      ++ (if fl.overQuota then [(.overQuota, 1)] else [])
      ++ if c.kind = .piece ∧ ∃ x, d = .some x ∧ x.quick = true then [(.quickPieces, 1)] else [] := by
  refine congrArg (HAppend.hAppend _) (if_congr (and_congr Iff.rfl ?_) rfl rfl)
  cases d <;> simp

theorem be16n_zero : be16n 0 = [0, 0] := by decide

section
variable (sl : Slot) (c : Committed) (fl : CommitFlags) {x : Decision}

theorem decisionBody_piece {p : PieceData} (kind : c.kind = .piece) (piece : x.body = .piece p) :
    decisionBody sl c (.some x) fl = [byte (kindCode c.kind)] ++ pairBytes c.saws ++ [opt8 c.bin]
      ++ [byte (p.j - p.i), byte p.grade, byte p.final, byte x.wc] ++ opt16 c.product ++ be16n p.value
      ++ [0xFF, setCode x.set, flagBits [x.quick, x.partialFlag, fl.stale, fl.catchDiversion, fl.overQuota]] := by
  simp [decisionBody, kind, piece, opt8]

theorem decisionBody_cull (kind : c.kind = .cull) (cull : x.body = .cull) :
    decisionBody sl c (.some x) fl = [byte (kindCode c.kind)] ++ pairBytes c.saws ++ [opt8 c.bin]
      ++ [0xFF, 0xFF, 0xFF, byte x.wc] ++ opt16 c.product ++ [0, 0]
      ++ [0xFF, setCode x.set, flagBits [x.quick, x.partialFlag, fl.stale, fl.catchDiversion, fl.overQuota]] := by
  simp [decisionBody, kind, cull, opt8, be16n_zero]

theorem decisionBody_reject (kind : c.kind = .reject) (reject : x.body = .reject) :
    decisionBody sl c (.some x) fl = [byte (kindCode c.kind)] ++ pairBytes c.saws ++ [opt8 c.bin]
      ++ [0xFF, 0xFF, 0xFF, 0xFF] ++ opt16 c.product ++ [0, 0]
      ++ [0xFF, 0xFF, flagBits [false, x.partialFlag, fl.stale, fl.catchDiversion, fl.overQuota]] := by
  have carries : (CommitKind.reject == .piece || CommitKind.reject == .cull) = false := rfl
  simp [decisionBody, kind, reject, opt8, be16n_zero, carries]

theorem decisionBody_bypass (kind : c.kind = .bypass) :
    decisionBody sl c .none fl = [byte (kindCode c.kind)] ++ pairBytes c.saws ++ [opt8 c.bin]
      ++ [0xFF, 0xFF, 0xFF, 0xFF] ++ opt16 c.product ++ [0, 0]
      ++ [0xFF, 0xFF, flagBits [false, sl.partialFlag, fl.stale, fl.catchDiversion, fl.overQuota]] := by
  simp [decisionBody, kind, opt8, be16n_zero]

theorem decisionBody_recycle (kind : c.kind = .recycle) :
    decisionBody sl c .none fl = [byte (kindCode c.kind)] ++ pairBytes c.saws ++ [opt8 c.bin]
      ++ [0xFF, 0xFF, 0xFF, 0xFF] ++ opt16 c.product ++ [0, 0]
      ++ [causeCode sl.cause, 0xFF, flagBits [false, sl.partialFlag, fl.stale, fl.catchDiversion, fl.overQuota]] := by
  simp [decisionBody, kind, opt8, be16n_zero]

end

/-- R92, R93: a commitment writes its slot, sends its frame and reports its counts. -/
theorem writeCommit_eq (s : State) (lug : LugSeq) (c : Committed) (d : Option Decision) (fl : CommitFlags) :
    writeCommit s lug c d fl = (enqueue (setSlot s lug { slotAt s lug with committed := .some c }) .D
      (.frame 0 (makeFrame 16 s.settings.ownAddress 31 lug
        (decisionBody { slotAt s lug with committed := .some c } c d fl)))).report (commitCounts c d fl) := by
  rw [writeCommit]
  dsimp only
  rw [slotAt_updSlot_same]
  rfl

/-! ### Bins and quota of a PIECE commitment (R90) -/

/-- R90: the bin that a PIECE commitment reserves of those named or bin 0, and whether it is a diversion. -/
def askOrCatch (s : State) (named : List Nat) : Nat × Bool × State :=
  match askBins s named with
  | (.some n, s') => (n, false, s')
  | (.none, s') => (0, true, storeEvent s' fun b => reserveIn b 0)

/-- R90: the first bin named that is open takes the reservation, else bin 0. -/
theorem askOrCatch_eq (s : State) (named : List Nat) {opens : Nat → Bool}
    (isOpen : opens = fun n => binOpen n (binAt s.bos n)) : askOrCatch s named =
      ((named.find? opens).getD 0, !named.any opens,
        storeEvent s fun b => reserveIn b ((named.find? opens).getD 0)) := by
  subst isOpen
  rw [askOrCatch, askBins_eq]
  cases first : named.find? fun n => binOpen n (binAt s.bos n) with
  | some n =>
    have found : (named.any fun n => binOpen n (binAt s.bos n)) = true :=
      List.any_eq_true.2 ⟨n, List.mem_of_find?_eq_some first,
        List.find?_some (p := fun n => binOpen n (binAt s.bos n)) first⟩
    rw [found]; rfl
  | none =>
    have shut : (named.any fun n => binOpen n (binAt s.bos n)) = false :=
      List.any_eq_false.2 (List.find?_eq_none.1 first)
    rw [shut]; rfl

theorem commitPiece_eq (s : State) (lug : LugSeq) (d : Decision) (p : PieceData) (stale : Bool) :
    let asked := askOrCatch s (p.chosen.toList ++ p.alternate.toList)
    let quota := takeQuota asked.2.2.bos p.product
    commitPiece s lug d p stale = writeCommit (asked.2.2.updBos fun _ => quota.2) lug
      { kind := .piece, saws := .some (p.i, p.j), bin := .some asked.1, product := .some p.product }
      (.some d) { stale := stale, catchDiversion := asked.2.1, overQuota := quota.1 } := rfl

theorem takeQuota_eq (b : BinStore) (p : Nat) : takeQuota b p =
    (quotaAt b p == .some 0, { b with quota := match quotaAt b p with
      | .some (n + 1) => sparseSet .none b.quota p (.some n)
      | .some 0 | .none => b.quota }) := by
  unfold takeQuota
  split
  · rename_i none; rw [none]; rfl
  · rename_i zero; rw [zero]; rfl
  · rename_i n some; rw [some]; rfl

/-- Settles O41: the frame field by field for each kind, and the bin and quota of a PIECE. -/
theorem pieceCommitmentsReserveAndTakeQuota : Obligations.PieceCommitmentsReserveAndTakeQuota := by
  refine ⟨?_, ?_⟩
  · intro s lug c d fl s1 cause marked flags sends
    have sent {grades value last : List Byte} (h : decisionBody { slotAt s lug with committed := .some c } c d fl =
        [byte (kindCode c.kind)] ++ pairBytes c.saws ++ [opt8 c.bin] ++ grades ++ opt16 c.product ++ value ++ last) :
        sends grades value last := by
      show writeCommit s lug c d fl = _
      rw [writeCommit_eq, h, commitCounts_eq]
    have flags_eq (quick part : Bool) : flagBits [quick, part, fl.stale, fl.catchDiversion, fl.overQuota]
        = flags quick part := flagBits_eq _ _ _ _ _
    refine ⟨fun x p kind decision piece => sent ?_, fun x kind decision cull => sent ?_,
      fun x kind decision reject => sent ?_, fun kind none => sent ?_, fun kind none => sent ?_⟩
    · rw [decision, ← flags_eq]; exact decisionBody_piece _ c fl kind piece
    · rw [decision, ← flags_eq]; exact decisionBody_cull _ c fl kind cull
    · rw [decision, ← flags_eq]; exact decisionBody_reject _ c fl kind reject
    · rw [none, ← flags_eq]; exact decisionBody_bypass _ c fl kind
    · rw [none, ← flags_eq]; exact decisionBody_recycle _ c fl kind
  · intro s lug d p stale piece opens named bin fl c s1 s2
    have event : s1 = storeEvent s fun b => reserveIn b bin := rfl
    have stored : s1.bos = reserveIn s.bos bin := storeEvent_bos s _
    have quota : takeQuota s1.bos p.product = (quotaAt s.bos p.product == .some 0, s2.bos) := by
      have left : s2.bos = { reserveIn s.bos bin with quota := s2.bos.quota } :=
        congrArg (fun b : BinStore => { b with quota := s2.bos.quota }) stored
      rw [takeQuota_eq, left, stored]; rfl
    have asked : askOrCatch s named = (bin, !named.any opens, s1) := askOrCatch_eq s named (by rfl)
    rw [commitPiece_eq, asked]
    dsimp only
    rw [quota]
    rfl

/-! ### Deliveries and retirement (R99 to R101, R107) -/

theorem takeSort_cons {rest : List LugSeq} (handed : s.handed.sorts = lug :: rest) :
    takeSort s = sortArrives (s.updHanded fun h => { h with sorts := rest }) lug := by
  rw [takeSort, handed]

/-- R12, R28: a slot retired is empty, its buffer freed. -/
theorem retire_eq (s : State) (lug : LugSeq) : retire s lug = { setSlot s lug (Slot.empty (slotAt s lug).seq) with
    sa := { s.sa with freeList := s.sa.freeList ++ (slotAt s lug).buffer.toList } } := by
  have freed : slotAt (freeBuffer s lug) lug = { slotAt s lug with buffer := .none } := by
    rw [freeBuffer_eq]; exact slotAt_setSlot_same s lug _
  rw [retire, updSlot, freed, setSlot_freeBuffer]

/-- A bin event depends on its change of the store as it stands. -/
theorem storeEvent_congr {f g : BinStore → BinStore} (same : f s.bos = g s.bos) : storeEvent s f = storeEvent s g := by
  have updated : s.updBos f = s.updBos g := by rw [State.updBos, State.updBos, same]
  rw [storeEvent, storeEvent, updated]

theorem deliver_redirects {b : BinStore} {n : Nat} (other : n ≠ 0) (out : (binAt b n).outOfService = true) :
    deliver b n = (0, true, addPiece (unreserve b n) 0) := if_pos ⟨other, out⟩

theorem deliver_stays {b : BinStore} {n : Nat} (inService : n = 0 ∨ (binAt b n).outOfService = false) :
    deliver b n = (n, false, addPiece (unreserve b n) n) := by
  refine if_neg fun ⟨other, out⟩ => ?_
  obtain zero | back := inService
  · exact other zero
  · rw [out] at back; cases back

/-- R101: the counts of a PIECE retired. -/
def pieceCounts (c : Committed) : List (TallyField × Nat) :=
  match c.kind, c.product, c.saws with
  | .piece, .some p, .some ij => [(.pieces p, 1), (.feet p, 2 * (ij.2 - ij.1))]
  | _, _, _ => []

theorem sortCounts_eq (c : Committed) (used : Option Nat) (redirect : Bool) : sortCounts c used redirect =
    [(.outcome c.kind, 1)] ++ (if c.kind = .recycle then c.cause.toList.map fun x => (.cause x, 1) else [])
      ++ pieceCounts c ++ (used.toList.map fun b => (.bin b, 1)) ++ if redirect then [(.redirects, 1)] else [] := by
  obtain ⟨kind, saws, bin, product, cause⟩ := c
  cases kind <;> cases product <;> cases saws <;> rfl

theorem sortCounts_recycle {c : Committed} (kind : c.kind = .recycle) : sortCounts c .none false =
    (.outcome .recycle, 1) :: c.cause.toList.map fun x => (.cause x, 1) := by
  simp [sortCounts_eq, pieceCounts, kind]

theorem sortCounts_redirected {c : Committed} (kind : c.kind ≠ .recycle) (used : Nat) :
    sortCounts c (.some used) true = (.outcome c.kind, 1) :: pieceCounts c ++ [(.bin used, 1), (.redirects, 1)] := by
  simp [sortCounts_eq, kind]

theorem sortCounts_delivered {c : Committed} (kind : c.kind ≠ .recycle) (used : Nat) :
    sortCounts c (.some used) false = (.outcome c.kind, 1) :: pieceCounts c ++ [(.bin used, 1)] := by
  simp [sortCounts_eq, kind]

/-- R99, R100: what a sort does once its bin is known: the SORT frame, the counts, the retirement. -/
def sorted (s : State) (lug : LugSeq) (c : Committed) (used : Option Nat) (redirect : Bool) : State :=
  retire ((enqueue s .D (.frame 0 (ownFrame s 17 31 lug (sortBody c used redirect)))).report
    (sortCounts c used redirect)) lug

theorem sortArrives_live (live : (slotAt s lug).committed = .none) : sortArrives s lug = retire s lug := by
  rw [sortArrives, live]

section
variable {c : Committed} (committed : (slotAt s lug).committed = .some c)
include committed

theorem sortArrives_binless (binless : c.bin = .none) : sortArrives s lug = sorted s lug c .none false := by
  rw [sortArrives, committed]
  dsimp only
  rw [sortCommitted, binless]
  rfl

theorem sortArrives_delivered {b used : Nat} {redirect : Bool} {store : BinStore} (bin : c.bin = .some b)
    (delivers : deliver s.bos b = (used, redirect, store)) :
    sortArrives s lug = sorted (storeEvent s fun st => (deliver st b).2.2) lug c (.some used) redirect := by
  rw [sortArrives, committed]
  dsimp only
  have settings : (storeEvent s fun st => (deliver st b).2.2).settings = s.settings :=
    storeEvent_touches s _ .settings (by decide)
  simp only [sortCommitted, bin, delivers, sorted, ownFrame, settings]

end

/-- R100: the frame, the counts and the retirement after them. -/
theorem sorted_eq {t : State} (settings : t.settings = s.settings) (lug : LugSeq) (c : Committed)
    {used : Option Nat} {redirect : Bool} {at_ flag : Byte} {counts : List (TallyField × Nat)}
    (usedByte : opt8 used = at_) (redirectByte : flagByte redirect = flag)
    (counted : sortCounts c used redirect = counts) :
    sorted t lug c used redirect = retire ((enqueue t .D (.frame 0 (makeFrame 17 s.settings.ownAddress 31 lug
      ([byte (kindCode c.kind), at_, opt8 c.bin] ++ opt16 c.product ++ [flag])))).report counts) lug := by
  rw [sorted, ownFrame, settings, sortBody, usedByte, redirectByte, counted]

/-- Settles O43: the bin decides the delivery, and the rest is the same for every kind. -/
theorem sortDeliversAndRetires : Obligations.SortDeliversAndRetires := by
  refine ⟨?_, fun b n => ?_⟩
  · intro s lug rest up handed s1 sl retired unhold sends piece
    have arrives : exec .sortArrival s = .next (sortArrives s1 lug) := by
      rw [exec_released _ up, effect, takeSort_cons handed]; rfl
    have pieces (c : Committed) : piece c = pieceCounts c := rfl
    have retires {t : State} (touches : unchangedBut [.bos, .lu, .freeCount] s1 t) (x : TxItem)
        (counts : List (TallyField × Nat)) : retire ((enqueue t .D x).report counts) lug
          = retired ((enqueue t .D x).report counts) := by
      have slot : slotAt ((enqueue t .D x).report counts) lug = sl :=
        (slotAt_enqueue t _ _ lug).trans (slotAt_of_ring (touches .ring (by decide)) lug)
      rw [retire_eq, slot]
    refine ⟨fun live => ?_, fun c committed => ⟨fun kind binless => ?_, fun b kind bin => ⟨fun other out => ?_,
      fun inService => ?_⟩⟩⟩
    · rw [arrives, sortArrives_live (s := s1) live, retire_eq]; rfl
    · rw [arrives, sortArrives_binless (s := s1) committed binless,
        sorted_eq (s := s) (t := s1) (at_ := 0xFF) (flag := 0) rfl lug c rfl rfl (sortCounts_recycle kind),
        retires (unchangedBut.refl _ s1)]
    · have delivers := deliver_redirects other out
      have event := storeEvent_touches s1 fun st => addPiece (unhold st b) 0
      rw [arrives, sortArrives_delivered (s := s1) committed bin delivers,
        storeEvent_congr (s := s1) (g := fun st => addPiece (unhold st b) 0) (congrArg (·.2.2) delivers),
        sorted_eq (s := s) (at_ := 0) (flag := 1) (event .settings (by decide)) lug c rfl rfl
          (sortCounts_redirected kind 0), retires event, ← pieces]
    · have delivers := deliver_stays inService
      have event := storeEvent_touches s1 fun st => addPiece (unhold st b) b
      rw [arrives, sortArrives_delivered (s := s1) committed bin delivers,
        storeEvent_congr (s := s1) (g := fun st => addPiece (unhold st b) b) (congrArg (·.2.2) delivers),
        sorted_eq (s := s) (at_ := byte b) (flag := 0) (event .settings (by decide)) lug c rfl rfl
          (sortCounts_delivered kind b), retires event, ← pieces]
  · unfold addPiece
    dsimp only
    split <;> rfl

end Sys2Proof.Proofs
end

section
/-! SUPPORT. The receive side of the links: arrivals, the acceptance table, error states, symbols and the link timer
(sections 9.1 to 9.5). -/

namespace Sys2Proof.Proofs

open Sys2Proof Sys2Proof.Machine

variable {s : State} {p : Port} {f : Frame}

/-! ### What sending and alerts leave of the Link Unit -/

theorem joinTx_form (q : PortState) (x : TxItem) :
    ∃ tx drops, joinTx q x = { q with tx := tx, drops := drops } := by
  unfold joinTx countDrop
  split
  · exact ⟨_, _, rfl⟩
  · split <;> exact ⟨_, _, rfl⟩

/-- R167, R168: a frame queued changes the queue, the transmitter and the drop counters of its port. -/
theorem enqueue_lu (s : State) (p : Port) (x : TxItem) : ∃ tx sending drops,
    (enqueue s p x).lu = (updPort s p fun q => { q with tx := tx, sending := sending, drops := drops }).lu := by
  obtain ⟨tx, sending, -, started⟩ := startTx_lu (updPort s p fun q => joinTx q x) p
  obtain ⟨joined, drops, form⟩ := joinTx_form (portOf s.lu p) x
  refine ⟨tx, sending, drops, started.trans ?_⟩
  rw [updPort_updPort]
  cases p
  · exact congrArg (fun q : PortState => { s.lu with u := { q with tx := tx, sending := sending } }) form
  · exact congrArg (fun q : PortState => { s.lu with d := { q with tx := tx, sending := sending } }) form

/-- R170: an alert changes the queue, the transmitter and the drop counters of D, and the merge counters. -/
theorem raiseAlert_lu (s : State) (k : AlertKind) : ∃ tx sending drops merged, (raiseAlert s k).lu = { s.lu with
    d := { s.lu.d with tx := tx, sending := sending, drops := drops }, merged := merged } := by
  unfold raiseAlert
  split
  · exact ⟨_, _, _, _, rfl⟩
  · obtain ⟨tx, sending, drops, sent⟩ := enqueue_lu s .D (.alert k 1)
    exact ⟨tx, sending, drops, s.lu.merged, sent⟩

theorem setErrCount_filters (s : State) (p : Port) (n : Nat) : (setErrCount s p n).lu.filters = s.lu.filters := by
  have moved (g : PortState → PortState) : (updPort s p g).lu.filters = s.lu.filters := by cases p <;> rfl
  unfold setErrCount
  dsimp only
  split
  · exact moved _
  · obtain ⟨tx, sending, drops, merged, raised⟩ := raiseAlert_lu
      (updPort s p fun q => { q with errCount := n, errState := judgeError (portOf s.lu p).errState n }) .port
    rw [raised]
    exact moved _

/-! ### What the receiver leaves of both ports -/

/-- A value of both ports. -/
def portsView {α : Type} (g : PortState → α) (l : LinkUnit) : α × α := (g l.u, g l.d)

section
variable {α : Type} {g : PortState → α}

theorem portsView_port {l m : LinkUnit} (h : portsView g m = portsView g l) (p : Port) :
    g (portOf m p) = g (portOf l p) := by
  obtain ⟨u, d⟩ := Prod.mk.inj h
  cases p
  · exact u
  · exact d

theorem portsView_updPort (s : State) (p : Port) {f : PortState → PortState} (kept : ∀ q, g (f q) = g q) :
    portsView g (updPort s p f).lu = portsView g s.lu := by
  cases p
  · exact congrArg (·, g s.lu.d) (kept _)
  · exact congrArg (g s.lu.u, ·) (kept _)

variable (blind : ∀ (q : PortState) tx sending drops n e,
  g { q with tx := tx, sending := sending, drops := drops, errCount := n, errState := e } = g q)
include blind

theorem portsView_startTx (s : State) (p : Port) : portsView g (startTx s p).lu = portsView g s.lu := by
  obtain ⟨tx, sending, -, started⟩ := startTx_lu s p
  rw [started]
  exact portsView_updPort s p fun q => blind q tx sending q.drops q.errCount q.errState

theorem portsView_enqueue (s : State) (p : Port) (x : TxItem) : portsView g (enqueue s p x).lu = portsView g s.lu := by
  obtain ⟨tx, sending, drops, sent⟩ := enqueue_lu s p x
  rw [sent]
  exact portsView_updPort s p fun q => blind q tx sending drops q.errCount q.errState

theorem portsView_raiseAlert (s : State) (k : AlertKind) :
    portsView g (raiseAlert s k).lu = portsView g s.lu := by
  obtain ⟨tx, sending, drops, merged, raised⟩ := raiseAlert_lu s k
  rw [raised]
  exact congrArg (g s.lu.u, ·) (blind s.lu.d tx sending drops s.lu.d.errCount s.lu.d.errState)

theorem portsView_setErrCount (s : State) (p : Port) (n : Nat) :
    portsView g (setErrCount s p n).lu = portsView g s.lu := by
  have counted := portsView_updPort (g := g) s p (f := fun q => { q with
    errCount := n, errState := judgeError (portOf s.lu p).errState n }) fun q => blind q q.tx q.sending q.drops _ _
  unfold setErrCount
  dsimp only
  split
  · exact counted
  · exact (portsView_raiseAlert blind _ _).trans counted

end

/-- The link of a port: its state and its timer. -/
def linkOf (q : PortState) : LinkState × Bool := (q.link, q.timer)

/-- The link of a port and what its receiver holds. -/
def wireOf (q : PortState) : LinkState × Bool × Option (List Byte) := (q.link, q.timer, q.rx)

theorem linkOf_blind (q : PortState) (tx : List TxItem) (sending : Option Frame) (drops : Vector Word 4) (n : Nat)
    (e : ErrorState) : linkOf { q with tx := tx, sending := sending, drops := drops, errCount := n, errState := e }
      = linkOf q := rfl

theorem wireOf_blind (q : PortState) (tx : List TxItem) (sending : Option Frame) (drops : Vector Word 4) (n : Nat)
    (e : ErrorState) : wireOf { q with tx := tx, sending := sending, drops := drops, errCount := n, errState := e }
      = wireOf q := rfl

/-- Both links are as they were. -/
def linksKept (s t : State) : Prop := portsView linkOf t.lu = portsView linkOf s.lu

theorem linksKept.trans {t u : State} (h : linksKept s t) (h' : linksKept t u) : linksKept s u := Eq.trans h' h

theorem updPort_linksKept (s : State) (p : Port) {f : PortState → PortState} (kept : ∀ q, linkOf (f q) = linkOf q) :
    linksKept s (updPort s p f) := portsView_updPort s p kept

theorem consume_linksKept (s : State) (q : QueueId) (p : Port) (f : Frame) : linksKept s (consume s q p f) := by
  unfold consume
  split
  · cases q <;> rfl
  · cases q
    case sorter => exact portsView_raiseAlert linkOf_blind _ _
    all_goals rfl

theorem forwardFrame_linksKept (s : State) (p : Port) (f : Frame) : linksKept s (forwardFrame s p f) :=
  portsView_enqueue linkOf_blind _ _ _

/-- R162: what the action of an entry does with a frame. -/
def acted (a : FilterAction) (q : QueueId) (t : State) (p : Port) (f : Frame) : State :=
  match a with
  | .consume => consume t q p f
  | .consumeForward => enqueue (consume t q p f) p.other (.frame 3 f)
  | .forward => enqueue t p.other (.frame 3 f)
  | .drop => t

theorem acted_linksKept (a : FilterAction) (q : QueueId) (t : State) (p : Port) (f : Frame) :
    linksKept t (acted a q t p f) := by
  cases a with
  | consume => exact consume_linksKept t q p f
  | consumeForward => exact (consume_linksKept t q p f).trans (forwardFrame_linksKept _ p f)
  | forward => exact forwardFrame_linksKept t p f
  | drop => rfl

/-- R162: the hit of an entry is counted. -/
def hitCounted (s : State) (n : Nat) (e : Filter) : State := { s with lu := { s.lu with
  filters := s.lu.filters.setIfInBounds n { e with hits := satInc e.hits } } }

theorem filterFrame_none (h : firstMatch s p f = .none) : filterFrame s p f = enqueue s p.other (.frame 3 f) := by
  unfold filterFrame
  rw [h]
  rfl

theorem filterFrame_some {n : Nat} {e : Filter} (h : firstMatch s p f = .some n)
    (at_n : (s.lu.filters[n]?).getD Filter.disabled = e) :
    filterFrame s p f = acted e.action e.queue (hitCounted s n e) p f := by
  subst at_n
  unfold filterFrame
  rw [h]
  rfl

theorem filterFrame_linksKept (s : State) (p : Port) (f : Frame) : linksKept s (filterFrame s p f) := by
  cases h : firstMatch s p f with
  | none => rw [filterFrame_none h]; exact forwardFrame_linksKept s p f
  | some n => rw [filterFrame_some h rfl]; exact acted_linksKept _ _ (hitCounted s n _) p f

theorem malformedArrival_linksKept (s : State) (p : Port) : linksKept s (malformedArrival s p) :=
  (updPort_linksKept s p (by intro; rfl)).trans (portsView_setErrCount linkOf_blind _ _ _)

theorem frameArrives_linksKept (s : State) (p : Port) (f : Frame) : linksKept s (frameArrives s p f) := by
  unfold frameArrives
  dsimp only
  split
  · exact malformedArrival_linksKept s p
  · split
    · have counted : linksKept s (setErrCount (updPort s p fun ps => { ps with good := satInc ps.good }) p
          (errDown (portOf s.lu p).errCount)) :=
        (updPort_linksKept s p (by intro; rfl)).trans (portsView_setErrCount linkOf_blind _ _ _)
      split
      · exact counted.trans (updPort_linksKept _ p (by intro; rfl))
      · exact counted.trans (filterFrame_linksKept _ _ _)
    · exact (updPort_linksKept s p (by intro; rfl)).trans (portsView_setErrCount linkOf_blind _ _ _)

theorem setRx_linksKept (s : State) (p : Port) (rx : Option (List Byte)) : linksKept s (setRx s p rx) :=
  updPort_linksKept s p (by intro; rfl)

/-- R155: a symbol taken by a receiver changes no link. -/
theorem receive_linksKept (s : State) (p : Port) (sym : Symbol) : linksKept s (receive s p sym) := by
  unfold receive
  split
  · rfl
  · exact setRx_linksKept s p _
  · exact (setRx_linksKept s p _).trans (malformedArrival_linksKept _ _)
  · rfl
  · exact (setRx_linksKept s p _).trans (malformedArrival_linksKept _ _)
  · rfl
  · unfold frameByte
    split
    · exact (setRx_linksKept s p _).trans (malformedArrival_linksKept _ _)
    · split
      · exact (setRx_linksKept s p _).trans (frameArrives_linksKept _ _ _)
      · exact setRx_linksKept s p _

/-! ### Arrivals and the acceptance table (R156, R161, R162) -/

theorem goodFrame_iff (f : Frame) : goodFrame f = true ↔
    f.check = crc ([f.b0, f.b1, f.b2] ++ be16 f.tag ++ [byte f.body.length] ++ f.body) := by
  rw [goodFrame, beq_iff_eq]; rfl

theorem setWidth_eq_extract {n m : Nat} (x : BitVec n) : x.setWidth m = x.extractLsb' 0 m := by
  apply BitVec.eq_of_toNat_eq
  simp

/-- R161: when an entry matches. -/
theorem matches_iff (e : Filter) (own : Nat) (p : Port) (f : Frame) : e.matches own p f = true ↔
    e.enabled = true ∧ f.b0.extractLsb' 0 6 &&& e.classMask = e.classMatch &&& e.classMask
      ∧ f.b1.extractLsb' 0 5 &&& e.originMask = e.originMatch &&& e.originMask
      ∧ (e.dest = .own → (f.b2.extractLsb' 0 5).toNat = own) ∧ (e.port = .u → p = .U) ∧ (e.port = .d → p = .D) := by
  have dest : (match e.dest with
      | .any => true
      | .own => frameDest f == own) = true ↔ (e.dest = .own → (f.b2.extractLsb' 0 5).toNat = own) := by
    rw [← setWidth_eq_extract]
    cases e.dest with
    | any => exact ⟨fun _ h => (nomatch h), fun _ => rfl⟩
    | own => exact ⟨fun h _ => beq_iff_eq.1 h, fun h => beq_iff_eq.2 (h rfl)⟩
  have port : e.port.names p = true ↔ (e.port = .u → p = .U) ∧ (e.port = .d → p = .D) := by
    cases e.port <;> simp [PortSel.names]
  unfold Filter.matches
  rw [Bool.and_eq_true, Bool.and_eq_true, Bool.and_eq_true, Bool.and_eq_true, beq_iff_eq, beq_iff_eq, port,
    ← setWidth_eq_extract, ← setWidth_eq_extract, and_assoc, and_assoc, and_assoc]
  exact and_congr_right fun _ => and_congr_right fun _ => and_congr_right fun _ => and_congr_left fun _ => dest

/-- R161: a frame hits an entry. -/
def hitBy (e : Filter) (own : Nat) (p : Port) (f : Frame) : Prop :=
  e.enabled = true ∧ f.b0.extractLsb' 0 6 &&& e.classMask = e.classMatch &&& e.classMask
    ∧ f.b1.extractLsb' 0 5 &&& e.originMask = e.originMatch &&& e.originMask
    ∧ (e.dest = .own → (f.b2.extractLsb' 0 5).toNat = own) ∧ (e.port = .u → p = .U) ∧ (e.port = .d → p = .D)

/-- R162: an entry of the table is looked at. -/
theorem filters_any (s : State) (p : Port) (f : Frame) (k : Fin 16) :
    ((s.lu.filters[k.val]?).any fun e => e.matches s.settings.ownAddress p f) = true
      ↔ hitBy s.lu.filters[k] s.settings.ownAddress p f := by
  rw [Vector.getElem?_eq_getElem k.isLt, Option.any_some]
  exact matches_iff _ _ p f

theorem firstMatch_none (h : ∀ k : Fin 16, ¬ hitBy s.lu.filters[k] s.settings.ownAddress p f) :
    firstMatch s p f = .none := by
  refine List.find?_range_eq_none.2 fun n small => ?_
  rw [Bool.not_eq_true', ← Bool.not_eq_true]
  exact fun hit => h ⟨n, small⟩ ((filters_any s p f ⟨n, small⟩).1 hit)

/-- R162: the lowest entry hit is the one that judges. -/
theorem firstMatch_some {k : Fin 16} (hit : hitBy s.lu.filters[k] s.settings.ownAddress p f)
    (first : ∀ j, j < k → ¬ hitBy s.lu.filters[j] s.settings.ownAddress p f) : firstMatch s p f = .some k.val := by
  refine List.find?_range_eq_some.2 ⟨(filters_any s p f k).2 hit, List.mem_range.2 k.isLt, fun j below => ?_⟩
  rw [Bool.not_eq_true', ← Bool.not_eq_true]
  exact fun h => first ⟨j, below.trans k.isLt⟩ below ((filters_any s p f ⟨j, below.trans k.isLt⟩).1 h)

/-- Settles O45: the arrival is the frame received with nothing held, and the lowest entry hit is the first match. -/
theorem completeFramesAreCheckedAndFiltered : Obligations.CompleteFramesAreCheckedAndFiltered := by
  unfold Obligations.CompleteFramesAreCheckedAndFiltered
  refine ⟨fun s p f => ⟨rfl, rfl, rfl, rfl⟩, ?_⟩
  intro s p f up short s0 q good s1 hit forwards
  have meaning : exec (.frameArrival p f) s = .next (frameArrives s0 p f) := exec_released _ up
  have received : portOf s0.lu p = { q with rx := .none } := portOf_updPort s p _
  have arrived : frameArrives s0 p f = if goodFrame f = true then
      (if (portOf s1.lu p).errState = .failed then updPort s1 p fun q => { q with
        failedDiscards := satInc q.failedDiscards } else filterFrame s1 p f)
      else setErrCount (updPort s0 p fun q => { q with bad := satInc q.bad }) p (min 255 (q.errCount + 8)) := by
    unfold frameArrives
    rw [if_neg (Nat.not_lt.2 short), received]
    rfl
  rw [meaning, arrived]
  have kept : s1.lu.filters = s.lu.filters := (setErrCount_filters _ p _).trans (by cases p <;> rfl)
  have settings : s1.settings = s.settings :=
    (setErrCount_touches _ p _ .settings (by decide)).trans (by cases p <;> rfl)
  refine ⟨fun bad => ?_, fun ok failed => ?_, fun ok judged => ⟨fun missed => ?_, ?_⟩⟩
  · rw [if_neg fun ok => bad ((goodFrame_iff f).1 ok)]
  · rw [if_pos ((goodFrame_iff f).2 ok), if_pos failed]
  · rw [if_pos ((goodFrame_iff f).2 ok), if_neg judged, filterFrame_none]
    apply firstMatch_none
    rw [kept, settings]
    exact missed
  · intro k hits first e s2
    have lowest : firstMatch s1 p f = .some k.val := by
      apply firstMatch_some <;> rw [kept, settings]
      · exact hits
      · exact first
    have entry : (s1.lu.filters[k.val]?).getD Filter.disabled = e := by
      rw [kept, Vector.getElem?_eq_getElem k.isLt]
      rfl
    rw [if_pos ((goodFrame_iff f).2 ok), if_neg judged, filterFrame_some lowest entry]
    have counted : hitCounted s1 k.val e = s2 := by
      unfold hitCounted
      rw [setIfInBounds_fin]
    rw [counted]
    rfl


/-! ### Error states, malformed and misrouted frames (R155, R158, R159, R165) -/

/-- R159, Table 9-2: the error state a count leaves. -/
theorem judgeError_eq (before : ErrorState) (n : Nat) : judgeError before n =
    if before = .failed then (if 64 ≤ n then .failed else .clean)
    else if 192 ≤ n then .failed
    else if 96 ≤ n then .noisy
    else if before = .noisy ∧ 64 ≤ n then .noisy
    else .clean := by
  cases before with
  | clean => simp [judgeError]
  | noisy =>
    simp only [judgeError, reduceCtorEq, if_false, true_and]
    by_cases high : 96 ≤ n
    · rw [if_pos high, if_pos (show 64 ≤ n by omega)]
    · rw [if_neg high]
  | failed => rfl

/-- R165: the head of a receive queue leaves it. -/
theorem popRx_head {q : QueueId} {x : Port × Frame} {rest : List (Port × Frame)} (head : rxQueue s.lu q = x :: rest) :
    popRx s q = { s with lu := setRxQueue s.lu q rest } :=
  congrArg (fun l => { s with lu := setRxQueue s.lu q l }) (congrArg List.tail head)

/-- R165: a frame misrouted leaves its queue. -/
theorem misrouted_head {q : QueueId} {rest : List (Port × Frame)} (head : rxQueue s.lu q = (p, f) :: rest)
    (other : classTaken q (frameClass f) = false) (ready : q = .mgmt → mgmtReady s = true) :
    misrouted s q = (let t := { s with lu := setRxQueue s.lu q rest }.updLu fun l => { l with
        misrouted := l.misrouted.inc q }
      if q = .scan then endScanTake t else t) := by
  unfold misrouted
  rw [head, ← popRx_head head]
  refine if_neg ?_
  rintro (taken | ⟨rfl, busy⟩)
  · rw [other] at taken; cases taken
  · rw [ready rfl] at busy; cases busy

/-- Settles O46, by Table 9-2 and the queues one by one. -/
theorem badFramesMoveTheErrorState : Obligations.BadFramesMoveTheErrorState := by
  unfold Obligations.BadFramesMoveTheErrorState
  refine ⟨fun s p n => ?_, fun s p how up => ?_, ?_⟩
  · dsimp only
    rw [← judgeError_eq]
    rfl
  · have meaning : exec (.malformedFrame p how) s
        = .next (malformedArrival (setRx s p (if how = .startMark then .some [] else .none)) p) := exec_released _ up
    rw [meaning]
    unfold malformedArrival setRx
    rw [updPort_updPort, portOf_updPort]
    rfl
  · intro s p f rest up n c
    have meaning (q : QueueId) : exec (.misroutedFrame q) s = .next (misrouted s q) := exec_released _ up
    refine ⟨fun head other => ?_, fun head other => ?_, fun head other idle swept => ?_, fun head other => ?_⟩
    · rw [meaning, misrouted_head (q := .scan) head (by simpa [classTaken, and_assoc, c] using other) nofun]
      rfl
    · rw [meaning, misrouted_head (q := .mark) head (by simpa [classTaken] using other) nofun]
      rfl
    · have ready : mgmtReady s = true := by simp [mgmtReady, idle, swept]
      rw [meaning, misrouted_head (q := .mgmt) head (by simpa [classTaken] using other) fun _ => ready]
      rfl
    · rw [meaning, misrouted_head (q := .sorter) head (by simpa [classTaken] using other) nofun]
      rfl

/-! ### Symbols and the link-alive timer (R155, R157) -/

theorem updPort_same {h : PortState → PortState} (same : h (portOf s.lu p) = portOf s.lu p) :
    updPort s p h = s := by
  cases p
  · exact congrArg (fun q : PortState => { s with lu := { s.lu with u := q } }) same
  · exact congrArg (fun q : PortState => { s with lu := { s.lu with d := q } }) same

/-- R157: the port of a first symbol, up and its timer running, before the symbol is taken. -/
def portUp (s : State) (p : Port) : State :=
  startTx (raiseAlert (updPort s p fun q => { q with link := .up, timer := true }) .port) p

theorem portUp_link (s : State) (p : Port) : linkOf (portOf (portUp s p).lu p) = (.up, true) := by
  have kept : portsView linkOf (portUp s p).lu
      = portsView linkOf (updPort s p fun q => { q with link := .up, timer := true }).lu :=
    (portsView_startTx linkOf_blind _ p).trans (portsView_raiseAlert linkOf_blind _ .port)
  rw [portsView_port kept p, portOf_updPort]
  rfl

/-- R155: what the receiver of an UP port takes. -/
theorem symbolReceived_up (up : s.resetPin = false) (link : (portOf s.lu p).link = .up) (sym : Symbol) :
    exec (.symbolReceived p sym) s = .next (receive (updPort s p fun q => { q with timer := true }) p sym) := by
  have meaning : exec (.symbolReceived p sym) s = .next (symbolOn s p sym) := exec_released _ up
  rw [meaning, symbolOn, if_pos link]

/-- R157: a symbol on a port that just came up is one on an UP port. -/
theorem symbolReceived_portUp (up : s.resetPin = false) (sym : Symbol) :
    exec (.symbolReceived p sym) (portUp s p) = .next (receive (portUp s p) p sym) := by
  have released : (portUp s p).resetPin = false := by
    have kept : unchangedBut [.lu, .freeCount] s (portUp s p) :=
      (((updPort_touches s p _).mono (by decide)).trans (raiseAlert_touches _ .port)).trans (startTx_touches _ p)
    exact (kept .resetPin (by decide)).trans up
  obtain ⟨link, timer⟩ := Prod.mk.inj (portUp_link s p)
  rw [symbolReceived_up released link, updPort_same]
  rw [← timer]

theorem receive_mark_none {m : Symbol} (mark : m = .startMark ∨ m = .endMark) (rx : (portOf s.lu p).rx = .none) :
    receive s p m = if m = .startMark then setRx s p (.some []) else s := by
  rcases mark with rfl | rfl <;> (unfold receive; rw [rx]; rfl)

theorem receive_data_none (b : Byte) (rx : (portOf s.lu p).rx = .none) : receive s p (.data b) = s := by
  unfold receive
  rw [rx]

theorem receive_data_some (b : Byte) {bytes : List Byte} (rx : (portOf s.lu p).rx = .some bytes) :
    receive s p (.data b) = frameByte s p (bytes ++ [b]) := by
  unfold receive
  rw [rx]

/-- The malformed frame a mark ends. -/
def endedBy : Symbol → MalformedBy
  | .startMark => .startMark
  | _ => .endMark

theorem malformedFrame_released (up : s.resetPin = false) (how : MalformedBy) : exec (.malformedFrame p how) s
    = .next (malformedArrival (setRx s p (if how = .startMark then .some [] else .none)) p) :=
  exec_released _ up

theorem receive_mark_some {m : Symbol} (mark : m = .startMark ∨ m = .endMark) (rx : (portOf s.lu p).rx ≠ .none)
    (up : s.resetPin = false) : .next (receive s p m) = exec (.malformedFrame p (endedBy m)) s := by
  obtain ⟨bytes, held⟩ := Option.ne_none_iff_exists'.1 rx
  rw [malformedFrame_released up]
  rcases mark with rfl | rfl <;> (unfold receive; rw [held]; rfl)

theorem num8_snoc_last {bytes : List Byte} {b : Byte} (five : bytes.length = 5) : num8 (bytes ++ [b]) 5 = b.toNat := by
  simp [num8, byteAt, List.getD, five]

theorem num8_snoc_kept {bytes : List Byte} {b : Byte} (six : 6 ≤ bytes.length) :
    num8 (bytes ++ [b]) 5 = (bytes.getD 5 0).toNat := by
  simp [num8, byteAt, List.getD, List.getElem?_append, show 5 < bytes.length by omega]

/-- R155: a byte that neither completes the frame nor shows it over-length is held. -/
theorem frameByte_held {bytes : List Byte} (fits : ¬ (bytes.length = 6 ∧ 240 < num8 bytes 5))
    (more : ¬ (8 ≤ bytes.length ∧ bytes.length = 8 + num8 bytes 5)) :
    frameByte s p bytes = setRx s p (.some bytes) := by
  rw [frameByte, if_neg fits, if_neg more]

theorem frameByte_overLength {bytes : List Byte} (tooLong : bytes.length = 6 ∧ 240 < num8 bytes 5)
    (up : s.resetPin = false) : .next (frameByte s p bytes) = exec (.malformedFrame p .overLength) s := by
  rw [frameByte, if_pos tooLong, malformedFrame_released up]
  rfl

/-- R155: the bytes of a frame complete it. -/
theorem frameByte_complete (short : f.body.length ≤ 240) (up : s.resetPin = false) :
    .next (frameByte s p ([f.b0, f.b1, f.b2] ++ be16 f.tag ++ [byte f.body.length] ++ f.body ++ be16 f.check))
      = exec (.frameArrival p f) s := by
  have meaning : exec (.frameArrival p f) s = .next (frameArrives (setRx s p .none) p f) := exec_released _ up
  have size : ([f.b0, f.b1, f.b2] ++ be16 f.tag ++ [byte f.body.length] ++ f.body ++ be16 f.check).length
      = 8 + f.body.length := by simp [be16]; omega
  have announced : num8 ([f.b0, f.b1, f.b2] ++ be16 f.tag ++ [byte f.body.length] ++ f.body ++ be16 f.check) 5
      = f.body.length := by
    simp only [num8, byteAt, be16]
    simp [byte]; omega
  rw [frameByte, size, announced, if_neg (by omega), if_pos ⟨by omega, rfl⟩, parseFrame_bytes f short, meaning]

/-- R157: the timer of an UP port expires. -/
theorem linkExpires_up (link : (portOf s.lu p).link = .up) (up : s.resetPin = false) :
    let expired := raiseAlert (updPort s p fun q => { q with link := .down, timer := false, rx := .none }) .port
    ((portOf s.lu p).rx = .none → exec (.linkAliveExpiry p) s = .next expired)
    ∧ ((portOf s.lu p).rx ≠ .none → exec (.linkAliveExpiry p) s = exec (.malformedFrame p .endMark) expired) := by
  intro expired
  have meaning : exec (.linkAliveExpiry p) s = .next (linkExpires s p) := exec_released _ up
  rw [meaning, linkExpires, if_pos link]
  refine ⟨fun idle => by rw [idle], fun busy => ?_⟩
  obtain ⟨bytes, held⟩ := Option.ne_none_iff_exists'.1 busy
  have released : expired.resetPin = false :=
    (raiseAlert_touches _ .port .resetPin (by decide)).trans (by cases p <;> exact up)
  have wire : wireOf (portOf expired.lu p) = (.down, false, .none) := by
    rw [portsView_port (portsView_raiseAlert wireOf_blind _ .port) p, portOf_updPort]
    rfl
  obtain ⟨-, off⟩ := Prod.mk.inj wire
  obtain ⟨-, empty⟩ := Prod.mk.inj off
  have unheld : setRx expired p .none = expired := updPort_same (by rw [← empty])
  rw [malformedFrame_released released, if_neg nofun, unheld, held]

/-- Settles O47: each symbol is what the receiver of the port, once up, does with it. -/
theorem symbolsDriveTheLinkAndTheReceiver : Obligations.SymbolsDriveTheLinkAndTheReceiver := by
  unfold Obligations.SymbolsDriveTheLinkAndTheReceiver
  intro s p sym up q expired
  refine ⟨fun down => ?_, fun link => ?_⟩
  · have first : exec (.linkUp p sym) s = .next (receive (portUp s p) p sym) := by
      have meaning : exec (.linkUp p sym) s = .next (takeLinkUp s p sym) := exec_released _ up
      rw [meaning, takeLinkUp, if_pos down]
      rfl
    have again : exec (.symbolReceived p sym) s = .next (receive (portUp s p) p sym) := by
      have meaning : exec (.symbolReceived p sym) s = .next (symbolOn s p sym) := exec_released _ up
      rw [meaning, symbolOn, if_neg (by rw [down]; nofun)]
      rfl
    have linked : linkOf (portOf (receive (portUp s p) p sym).lu p) = (.up, true) :=
      (portsView_port (receive_linksKept _ p sym) p).trans (portUp_link s p)
    obtain ⟨isUp, running⟩ := Prod.mk.inj linked
    exact ⟨first.trans again.symm, first.trans (symbolReceived_portUp up sym).symm, _, first, isUp, running⟩
  · intro timed holds
    have released : timed.resetPin = false := by cases p <;> exact up
    have rx : (portOf timed.lu p).rx = q.rx := by rw [portOf_updPort]
    obtain ⟨expiry, expiryMalformed⟩ := linkExpires_up link up
    rw [symbolReceived_up up link]
    refine ⟨expiry, expiryMalformed, ?_, ?_, ?_, ?_, ?_, ?_⟩
    · rintro rfl; rfl
    · rintro rfl idle
      rw [receive_mark_none (.inl rfl) (rx.trans idle)]
      rfl
    · rintro rfl busy
      exact receive_mark_some (.inl rfl) (rx ▸ busy) released
    · rintro rfl idle
      rw [receive_mark_none (.inr rfl) (rx.trans idle)]
      rfl
    · rintro rfl busy
      exact receive_mark_some (.inr rfl) (rx ▸ busy) released
    · rintro b rfl
      refine ⟨fun idle => by rw [receive_data_none b (rx.trans idle)], fun bytes held => ?_⟩
      rw [receive_data_some b (rx.trans held)]
      have size : (bytes ++ [b]).length = bytes.length + 1 := by simp
      refine ⟨fun few => ?_, fun five tooLong => ?_, fun five fits => ?_, fun six more => ?_,
        fun f short complete => ?_⟩
      · rw [frameByte_held (by omega) (by omega)]
        rfl
      · exact frameByte_overLength ⟨by omega, by rw [num8_snoc_last five]; exact tooLong⟩ released
      · rw [frameByte_held (by rw [num8_snoc_last five]; omega) (by omega)]
        rfl
      · rw [frameByte_held (by omega) (by rw [num8_snoc_kept six]; omega)]
        rfl
      · rw [complete]
        exact frameByte_complete short released

end Sys2Proof.Proofs
end

section
/-! SUPPORT. Table requests, their accesses and the set selection (sections 8.5, 8.6). -/

namespace Sys2Proof.Proofs

open Sys2Proof Sys2Proof.Machine

variable {s : State} {p : Port} {f : Frame} {rest : List (Port × Frame)}

/-! ### The checks of Table 8-3 -/

/-- R145, check 1: what refuses the arguments of a table request. -/
def tableArgsBad (args : List Byte) (limit need : Nat) : Prop :=
  1 < num8 args 0 ∨ 9 < num8 args 1 ∨ num8 args 3 < 1 ∨ limit < num8 args 3 ∨ 256 < num8 args 2 + num8 args 3
    ∨ args.length < need

/-- The set a number below 2 names. -/
def setNamed (n : Nat) : SetId := if n = 0 then .s0 else .s1

theorem setOf_eq (n : Nat) : Machine.setOf n = if 1 < n then .none else .some (setNamed n) := by
  match n with
  | 0 => rfl
  | 1 => rfl
  | n + 2 => rfl

/-- The fields of a table request. -/
def tableFields (args : List Byte) : TableArgs :=
  { set := setNamed (num8 args 0), page := num8 args 1, first := num8 args 2, count := num8 args 3 }

theorem tableArgs_bad {args : List Byte} {limit fixed width : Nat}
    (bad : tableArgsBad args limit (fixed + width * num8 args 3)) : tableArgs args limit fixed width = .none := by
  unfold tableArgs
  dsimp only
  rw [setOf_eq]
  unfold tableArgsBad at bad
  by_cases named : 1 < num8 args 0
  · rw [if_pos named]
  · rw [if_neg named]
    generalize fixed + width * num8 args 3 = need at bad ⊢
    exact if_neg (by omega)

theorem tableArgs_good {args : List Byte} {limit fixed width : Nat}
    (good : ¬ tableArgsBad args limit (fixed + width * num8 args 3)) :
    tableArgs args limit fixed width = .some (tableFields args) := by
  unfold tableArgs
  dsimp only
  rw [setOf_eq]
  unfold tableArgsBad at good
  generalize fixed + width * num8 args 3 = need at good ⊢
  rw [if_neg fun named => good (.inl named)]
  exact if_pos (by omega)

theorem tableEntry_unmapped {a : TableArgs} (none : entryOf s.tm a.set a.page = .none) (writes : Bool) :
    tableEntry s a writes = .error .unmapped := by
  unfold tableEntry
  rw [none]

theorem tableEntry_read {a : TableArgs} {e : MapEntry} (mapped : entryOf s.tm a.set a.page = .some e) :
    tableEntry s a false = .ok e.page := by
  unfold tableEntry
  rw [mapped]
  rfl

theorem tableEntry_protected {a : TableArgs} {e : MapEntry} (mapped : entryOf s.tm a.set a.page = .some e)
    (readOnly : e.readOnly = true) : tableEntry s a true = .error .protectedEntry := by
  unfold tableEntry
  rw [mapped]
  simp only [readOnly, Bool.and_self, if_true]

theorem tableEntry_inUse {a : TableArgs} {e : MapEntry} (mapped : entryOf s.tm a.set a.page = .some e)
    (writable : e.readOnly = false) (used : pageInUse s e.page = true) : tableEntry s a true = .error .inUse := by
  unfold tableEntry
  rw [mapped]
  simp [writable, used]

theorem tableEntry_free {a : TableArgs} {e : MapEntry} (mapped : entryOf s.tm a.set a.page = .some e)
    (writable : e.readOnly = false) (free : pageInUse s e.page = false) : tableEntry s a true = .ok e.page := by
  unfold tableEntry
  rw [mapped]
  simp [writable, free]

/-! ### The three requests -/

theorem tableRead_bad (bad : tableArgsBad (requestArgs f) 117 4) : tableRead s p f = reply s p f .badArg [] := by
  unfold tableRead
  rw [tableArgs_bad (by rwa [Nat.zero_mul, Nat.add_zero])]

theorem tableRead_refused {r : Result} (good : ¬ tableArgsBad (requestArgs f) 117 4)
    (refused : tableEntry s (tableFields (requestArgs f)) false = .error r) :
    tableRead s p f = reply s p f r [] := by
  unfold tableRead
  rw [tableArgs_good (by rwa [Nat.zero_mul, Nat.add_zero])]
  dsimp only
  rw [refused]

theorem tableRead_begins {page : Nat} (good : ¬ tableArgsBad (requestArgs f) 117 4)
    (found : tableEntry s (tableFields (requestArgs f)) false = .ok page) :
    tableRead s p f = beginWork s p f
      (.read (page * 256 + num8 (requestArgs f) 2) (num8 (requestArgs f) 3) [])
      (page * 256 + num8 (requestArgs f) 2) .read := by
  unfold tableRead
  rw [tableArgs_good (by rwa [Nat.zero_mul, Nat.add_zero])]
  dsimp only
  rw [found]
  rfl

theorem tableWrite_bad (bad : tableArgsBad (requestArgs f) 116 (4 + 2 * num8 (requestArgs f) 3)) :
    tableWrite s p f = reply s p f .badArg [] := by
  unfold tableWrite
  rw [tableArgs_bad bad]

theorem tableWrite_refused {r : Result} (good : ¬ tableArgsBad (requestArgs f) 116 (4 + 2 * num8 (requestArgs f) 3))
    (refused : tableEntry s (tableFields (requestArgs f)) true = .error r) :
    tableWrite s p f = reply s p f r [] := by
  unfold tableWrite
  rw [tableArgs_good good]
  dsimp only
  rw [refused]

theorem tableWrite_begins {page : Nat}
    (good : ¬ tableArgsBad (requestArgs f) 116 (4 + 2 * num8 (requestArgs f) 3))
    (found : tableEntry s (tableFields (requestArgs f)) true = .ok page) :
    tableWrite s p f = beginWork s p f (.write (page * 256 + num8 (requestArgs f) 2)
        ((List.range (num8 (requestArgs f) 3)).map fun k => word16 (requestArgs f) (4 + 2 * k)) 0)
      (page * 256 + num8 (requestArgs f) 2) (.write (word16 (requestArgs f) 4)) := by
  have some : 0 < num8 (requestArgs f) 3 := by unfold tableArgsBad at good; omega
  have first : (writeValues (requestArgs f) (num8 (requestArgs f) 3)).getD 0 0 = word16 (requestArgs f) 4 := by
    simp [writeValues, List.getD, some]
  unfold tableWrite
  rw [tableArgs_good good]
  dsimp only
  rw [found]
  dsimp only [tableFields]
  rw [first]
  rfl

/-- R145: the half a number below 2 names. -/
def halfNamed (n : Nat) : Half := if n = 0 then .high else .low

theorem halfOf_eq (n : Nat) : halfOf n = if 1 < n then .none else .some (halfNamed n) := by
  match n with
  | 0 => rfl
  | 1 => rfl
  | n + 2 => rfl

/-- R145, check 1: what refuses the arguments of a TABLE-WRITE-BYTE. -/
def byteArgsBad (args : List Byte) : Prop := tableArgsBad args 120 (5 + num8 args 3) ∨ 1 < num8 args 4

theorem tableWriteByte_bad (bad : byteArgsBad (requestArgs f)) : tableWriteByte s p f = reply s p f .badArg [] := by
  unfold tableWriteByte
  rcases bad with bad | other
  · rw [tableArgs_bad (by rwa [Nat.one_mul])]
  · rw [halfOf_eq, if_pos other]
    cases tableArgs (requestArgs f) 120 5 1 <;> rfl

theorem tableWriteByte_refused {r : Result} (good : ¬ byteArgsBad (requestArgs f))
    (refused : tableEntry s (tableFields (requestArgs f)) true = .error r) :
    tableWriteByte s p f = reply s p f r [] := by
  obtain ⟨fields, half⟩ := not_or.1 good
  unfold tableWriteByte
  rw [tableArgs_good (by rwa [Nat.one_mul]), halfOf_eq, if_neg half]
  dsimp only
  rw [refused]

theorem tableWriteByte_begins {page : Nat} (good : ¬ byteArgsBad (requestArgs f))
    (found : tableEntry s (tableFields (requestArgs f)) true = .ok page) :
    tableWriteByte s p f = beginWork s p f (.writeByte (page * 256 + num8 (requestArgs f) 2)
        (halfNamed (num8 (requestArgs f) 4)) (((requestArgs f).drop 5).take (num8 (requestArgs f) 3)) 0)
      (page * 256 + num8 (requestArgs f) 2)
      (.writeByte (halfNamed (num8 (requestArgs f) 4)) (byteAt (requestArgs f) 5)) := by
  obtain ⟨fields, half⟩ := not_or.1 good
  have some : 0 < num8 (requestArgs f) 3 := by unfold tableArgsBad at fields; omega
  have first : byteAt (((requestArgs f).drop 5).take (num8 (requestArgs f) 3)) 0 = byteAt (requestArgs f) 5 := by
    simp [byteAt, List.getD, some]
  unfold tableWriteByte
  rw [tableArgs_good (by rwa [Nat.one_mul]), halfOf_eq, if_neg half]
  dsimp only
  rw [found]
  dsimp only [tableFields]
  rw [first]

/-- Settles O50: the checks of Table 8-3 in order, for each of the three requests. -/
theorem tableRequestsAreCheckedThenBegin : Obligations.TableRequestsAreCheckedThenBegin := by
  unfold Obligations.TableRequestsAreCheckedThenBegin
  intro s p f rest s1 args set page first count sid bad protects begins start
  refine ⟨fun request => ?_, fun request => ?_, fun request => ?_⟩
  · have meaning : exec .tableRead s = .next (tableRead s1 p f) := takeRequest_requested _ rfl request
    obtain ⟨-, -, -, -, -, -, long⟩ := request
    have whole : args.length = f.body.length - 3 := List.length_drop
    have checks : bad 117 ↔ tableArgsBad args 117 4 := by
      unfold tableArgsBad
      show _ ∨ _ ∨ _ ∨ _ ∨ _ ↔ _
      omega
    rw [meaning, checks]
    refine ⟨fun refused => ?_, fun good unmapped => ?_, fun e good mapped => ?_⟩
    · rw [tableRead_bad refused]
    · rw [tableRead_refused (s := s1) good (tableEntry_unmapped unmapped false)]
    · rw [tableRead_begins (s := s1) good (tableEntry_read mapped)]
      rfl
  · have meaning : exec .tableWrite s = .next (tableWrite s1 p f) := takeRequest_requested _ rfl request
    intro bad' values
    have checks : bad' ↔ tableArgsBad args 116 (4 + 2 * num8 args 3) := by
      show (_ ∨ _ ∨ _ ∨ _ ∨ _) ∨ _ ↔ _
      rw [or_assoc, or_assoc, or_assoc, or_assoc]
      rfl
    rw [meaning, checks]
    refine ⟨fun refused => ?_, fun good unmapped => ?_, fun e good mapped => ⟨⟨fun readOnly => ?_,
      fun writable used => ?_⟩, fun writable free => ?_⟩⟩
    · rw [tableWrite_bad refused]
    · rw [tableWrite_refused (s := s1) good (tableEntry_unmapped unmapped true)]
    · rw [meaning, tableWrite_refused (s := s1) good (tableEntry_protected mapped readOnly)]
    · rw [meaning, tableWrite_refused (s := s1) good (tableEntry_inUse mapped writable used)]
    · rw [tableWrite_begins (s := s1) good (tableEntry_free mapped writable free)]
      rfl
  · have meaning : exec .tableWriteByte s = .next (tableWriteByte s1 p f) := takeRequest_requested _ rfl request
    intro bad' half
    have checks : bad' ↔ byteArgsBad args := by
      show (_ ∨ _ ∨ _ ∨ _ ∨ _) ∨ _ ∨ _ ↔ ((_ ∨ _ ∨ _ ∨ _ ∨ _ ∨ _) ∨ _)
      simp only [or_assoc]
      rfl
    rw [meaning, checks]
    refine ⟨fun refused => ?_, fun good unmapped => ?_, fun e good mapped => ⟨⟨fun readOnly => ?_,
      fun writable used => ?_⟩, fun writable free => ?_⟩⟩
    · rw [tableWriteByte_bad refused]
    · rw [tableWriteByte_refused (s := s1) good (tableEntry_unmapped unmapped true)]
    · rw [meaning, tableWriteByte_refused (s := s1) good (tableEntry_protected mapped readOnly)]
    · rw [meaning, tableWriteByte_refused (s := s1) good (tableEntry_inUse mapped writable used)]
    · rw [tableWriteByte_begins (s := s1) good (tableEntry_free mapped writable free)]
      rfl

/-! ### The accesses of a request in execution (R146 to R151) -/

/-- An access of the management, by a command whose effect it is, is that of the request in execution. -/
theorem exec_access {a : Access} {e : InExec} {c : Instr} {k : State → Access → InExec → State}
    (h : MgmtAccessing s a e) (does : effect c s = mgmtAccess k s) : exec c s = .next (k s a e) := by
  obtain ⟨up, access, who, running⟩ := h
  rw [exec_released _ up, does, mgmtAccess, access, running]
  exact congrArg Host.Outcome.next (if_pos who)

theorem continueWork_eq {t : State} (same : t.mg = s.mg) (e : InExec) (w : Work) (i : Nat) (k : AccessKind) :
    continueWork t e w i k = grant { t with
      mg := { s.mg with exec := .some { e with work := w } }, tm := { t.tm with waitMgmt := .some (i, k) } } := by
  rw [← same]; rfl

theorem endWork_eq {t : State} (same : t.mg = s.mg) (e : InExec) (r : Result) (data : List Byte) :
    endWork t e r data = reply { t with mg := { s.mg with exec := .none } } e.port e.frame r data := by
  rw [← same]; rfl

/-- The state a read of the management leaves. -/
def mgmtRead (s : State) (i : Nat) : State := endAccess (noteRead s .management i)

theorem mgmtRead_mg (s : State) (i : Nat) : (mgmtRead s i).mg = s.mg :=
  endedRead_touches s .management i .mg (by decide)

theorem mgmtRead_sa (s : State) (i : Nat) : (mgmtRead s i).sa = s.sa :=
  endedRead_touches s .management i .sa (by decide)

theorem mgmtRead_maps (s : State) (i : Nat) (sid : SetId) : mapOf (mgmtRead s i).tm sid = mapOf s.tm sid := by
  have noted := noteRead_quiet s .management i
  have ended := grant_quiet ((noteRead s .management i).updTm fun t => { t with access := .none })
  cases sid
  · exact ended.map0.trans noted.map0
  · exact ended.map1.trans noted.map1

/-- The state a word stored by the management leaves. -/
def mgmtStored (s : State) (i : Nat) (v : Word) : State := endAccess { s with tm := { s.tm with
  words := sparseSet blankWord s.tm.words i { written := v, changed := 0 } } }

theorem mgmtStored_mg (s : State) (i : Nat) (v : Word) : (mgmtStored s i v).mg = s.mg :=
  endAccess_touches _ .mg (by decide)

/-- R135: what a read returns. -/
def returnsWord (s : State) (i : Nat) (v : Word) : Prop := checkAt s i = .clean v ∨ checkAt s i = .single v

section
variable {a : Access} {e : InExec}

/-! #### TABLE-READ -/

section
variable {start count : Nat} {got : List Word} (work : e.work = .read start count got)
include work

theorem readAccess_double (double : checkAt s a.index = .double) :
    readAccess s a e = endWork (mgmtRead s a.index) e .ecc (byte got.length :: got.flatMap be16) := by
  unfold readAccess
  rw [work]
  dsimp only
  rw [double]
  rfl

theorem readAccess_word {v : Word} (returned : returnsWord s a.index v) : readAccess s a e =
    if count ≤ got.length + 1 then endWork (mgmtRead s a.index) e .done ((got ++ [v]).flatMap be16)
    else continueWork (mgmtRead s a.index) e (.read start count (got ++ [v])) (start + (got.length + 1)) .read := by
  have size : (got ++ [v]).length = got.length + 1 := by simp
  unfold readAccess
  rw [work]
  dsimp only
  rcases returned with found | found <;> (rw [found]; dsimp only; rw [size]; rfl)

end

/-! #### TABLE-WRITE -/

theorem writeAccess_word {start pos : Nat} {values : List Word} {v : Word} (work : e.work = .write start values pos)
    (value : values[pos]? = .some v) : writeAccess s a e =
      if values.length ≤ pos + 1 then endWork (mgmtStored s a.index v) e .done []
      else continueWork (mgmtStored s a.index v) e (.write start values (pos + 1)) (start + (pos + 1))
        (.write (values.getD (pos + 1) 0)) := by
  have here : values.getD pos 0 = v := by rw [List.getD_eq_getElem?_getD, value]; rfl
  unfold writeAccess
  rw [work]
  dsimp only
  rw [here]
  rfl

/-! #### TABLE-WRITE-BYTE -/

section
variable {start pos : Nat} {half : Half} {bytes : List Byte} (work : e.work = .writeByte start half bytes pos)
include work

theorem byteAccess_double (double : checkAt s a.index = .double) :
    byteAccess s a e = endWork (mgmtRead s a.index) e .ecc [byte pos] := by
  unfold byteAccess
  rw [work]
  dsimp only
  rw [double]
  rfl

theorem byteAccess_word {v : Word} {b : Byte} (returned : returnsWord s a.index v) (value : bytes[pos]? = .some b) :
    byteAccess s a e =
      let stored := mgmtStored (noteRead s .management a.index) a.index (mergeHalf half b v)
      if bytes.length ≤ pos + 1 then endWork stored e .done []
      else continueWork stored e (.writeByte start half bytes (pos + 1)) (start + (pos + 1))
        (.writeByte half (byteAt bytes (pos + 1))) := by
  have here : byteAt bytes pos = b := by rw [byteAt, List.getD_eq_getElem?_getD, value]; rfl
  unfold byteAccess
  rw [work]
  dsimp only
  rcases returned with found | found <;> (rw [found]; dsimp only; rw [here]; rfl)

end
end

/-- Settles O51, by the work in execution and the check of the word. -/
theorem tableAccessesReadWriteAndMerge : Obligations.TableAccessesReadWriteAndMerge := by
  unfold Obligations.TableAccessesReadWriteAndMerge
  intro s a e accessing read stores ends goesOn returns
  have next {α : Type} {l : List α} {n : Nat} {x : α} (more : l[n]? = .some x) : ¬ l.length ≤ n := fun short => by
    rw [List.getElem?_eq_none short] at more; cases more
  refine ⟨fun start count got work => ⟨fun double => ?_, fun v returned => ⟨fun more => ?_, fun last => ?_⟩⟩,
    fun start values pos v work value => ⟨fun v' more => ?_, fun last => ?_⟩,
    fun start half bytes pos b work value => ⟨fun double => ?_, ?_⟩⟩
  · rw [exec_access (k := readAccess) accessing rfl, readAccess_double work double,
      endWork_eq (mgmtRead_mg s a.index)]
    rfl
  · rw [exec_access (k := readAccess) accessing rfl, readAccess_word work returned, if_neg (by omega),
      continueWork_eq (mgmtRead_mg s a.index)]
    rfl
  · rw [exec_access (k := readAccess) accessing rfl, readAccess_word work returned, if_pos last,
      endWork_eq (mgmtRead_mg s a.index)]
    rfl
  · have value' : values.getD (pos + 1) 0 = v' := by rw [List.getD_eq_getElem?_getD, more]; rfl
    rw [exec_access (k := writeAccess) accessing rfl, writeAccess_word work value, if_neg (next more), value',
      continueWork_eq (mgmtStored_mg s a.index v)]
    rfl
  · rw [exec_access (k := writeAccess) accessing rfl, writeAccess_word work value, if_pos (by omega),
      endWork_eq (mgmtStored_mg s a.index v)]
    rfl
  · rw [exec_access (k := byteAccess) accessing rfl, byteAccess_double work double,
      endWork_eq (mgmtRead_mg s a.index)]
    rfl
  · intro v returned merged stored
    have kept : (mgmtStored (noteRead s .management a.index) a.index (mergeHalf half b v)).mg = s.mg :=
      (mgmtStored_mg _ _ _).trans (noteRead_touches s .management a.index .mg (by decide))
    have same : mergeHalf half b v = merged := by cases half <;> rfl
    refine ⟨fun b' more => ?_, fun last => ?_⟩
    · have value' : byteAt bytes (pos + 1) = b' := by rw [byteAt, List.getD_eq_getElem?_getD, more]; rfl
      rw [exec_access (k := byteAccess) accessing rfl, byteAccess_word work returned value]
      dsimp only
      rw [if_neg (next more), value', continueWork_eq kept, same]
      rfl
    · rw [exec_access (k := byteAccess) accessing rfl, byteAccess_word work returned value]
      dsimp only
      rw [if_pos (by omega), endWork_eq kept, same]
      rfl

/-! ### The set selection (R149 to R151) -/

theorem getD_drop (words : List Word) (n k : Nat) : (words.drop n).getD k 0 = words.getD (n + k) 0 := by
  simp [List.getD_eq_getElem?_getD]

/-- Table 11-8: the entry of a head, from its own 32 words. -/
theorem cacheOfWords_head (words : List Word) (h : Fin 8) :
    (cacheOfWords words).heads[h] = headOfWords (words.drop (32 * h.val)) := by
  simp [cacheOfWords]

theorem headOfWords_class (words : List Word) (raw : Fin 64) :
    (headOfWords words).classMap[raw] = classOfCode words raw.val := by
  simp [headOfWords]

theorem cacheOfWords_thresholds {words : List Word} (whole : words.length = 263) :
    (cacheOfWords words).thresholds = (List.range 7).map fun k => (words.getD (256 + k) 0).toNat := by
  apply List.ext_getElem
  · simp [cacheOfWords, whole]
  · intro k small _
    have bound : 256 + k < words.length := by
      have : k < words.length - 256 := by simpa [cacheOfWords] using small
      omega
    simp [cacheOfWords, List.getD_eq_getElem?_getD, bound]

/-- R149: a set is wholly mapped when none of its entries is unmapped. -/
theorem whollyMapped_iff (t : TableMemory) (sid : SetId) :
    whollyMapped t sid = true ↔ ∀ k : Fin 10, (mapOf t sid)[k] ≠ .none := by
  rw [whollyMapped, List.all_eq_true]
  simp only [← Option.isSome_iff_ne_none]
  constructor
  · exact fun all k => all _ (by simp)
  · intro all x mem
    obtain ⟨k, small, rfl⟩ := List.getElem_of_mem mem
    exact all ⟨k, by simpa using small⟩

/-- R150: the page and the word of the n-th word of the copy. -/
theorem copyPlace_eq (n : Nat) : (copyPage n, copyWord n) = if n < 256 then (0, n) else (1, n - 16) := by
  unfold copyPage copyWord
  split
  · rfl
  · rw [show 240 + (n - 256) = n - 16 by omega]

theorem copyIndex_mapped {t : TableMemory} {sid : SetId} {n : Nat} {m : MapEntry}
    (mapped : entryOf t sid (copyPage n) = .some m) : copyIndex t sid n = m.page * 256 + copyWord n := by
  rw [copyIndex, physOf, mapped]
  rfl

theorem setSelect_badArg (bad : 1 < num8 (requestArgs f) 0) : setSelect s p f = reply s p f .badArg [] := by
  rw [setSelect, setOf_eq, if_pos bad]

theorem setSelect_named (named : num8 (requestArgs f) 0 ≤ 1) : setSelect s p f =
    if whollyMapped s.tm (setNamed (num8 (requestArgs f) 0)) then
      beginWork s p f (.select (setNamed (num8 (requestArgs f) 0)) [])
        (copyIndex s.tm (setNamed (num8 (requestArgs f) 0)) 0) .read
    else reply s p f .unmapped [] := by
  rw [setSelect, setOf_eq, if_neg (Nat.not_lt.2 named)]

section
variable {a : Access} {e : InExec} {sid : SetId} {staging : List Word} (work : e.work = .select sid staging)
include work

theorem copyAccess_double (double : checkAt s a.index = .double) : copyAccess s a e =
    endWork (mgmtRead s a.index) e .ecc [byte (copyPage staging.length), byte (copyWord staging.length)] := by
  unfold copyAccess
  rw [work]
  dsimp only
  rw [double]
  rfl

theorem copyAccess_word {v : Word} (returned : returnsWord s a.index v) : copyAccess s a e =
    if 263 ≤ staging.length + 1 then finishSelect (mgmtRead s a.index) e sid (staging ++ [v])
    else continueWork (mgmtRead s a.index) e (.select sid (staging ++ [v]))
      (copyIndex s.tm sid (staging.length + 1)) .read := by
  have size : (staging ++ [v]).length = staging.length + 1 := by simp
  have unmoved : copyIndex (mgmtRead s a.index).tm sid (staging.length + 1)
      = copyIndex s.tm sid (staging.length + 1) := by
    unfold copyIndex physOf entryOf
    rw [mgmtRead_maps]
  rw [← unmoved]
  unfold copyAccess
  rw [work]
  dsimp only
  rcases returned with found | found <;> (rw [found]; dsimp only; rw [size]; rfl)

end

theorem finishSelect_eq (s : State) (i : Nat) (e : InExec) (sid : SetId) (words : List Word) :
    finishSelect (mgmtRead s i) e sid words = reply { mgmtRead s i with
      mg := { s.mg with exec := .none }
      tm := { (mgmtRead s i).tm with active := .some sid }
      sa := { s.sa with cache := cacheOfWords words } } e.port e.frame .done [] := by
  rw [← mgmtRead_mg s i, ← mgmtRead_sa s i]
  rfl

/-- Settles O52: the copy's words stand in the two pages in order, and the cache is read off the whole copy. -/
theorem setSelectionCopiesThenActivates : Obligations.SetSelectionCopiesThenActivates := by
  unfold Obligations.SetSelectionCopiesThenActivates
  refine ⟨?_, ?_, ?_⟩
  · intro words whole c w
    refine ⟨fun h => ?_, cacheOfWords_thresholds whole⟩
    intro e
    have entry : e = headOfWords (words.drop (32 * h.val)) := cacheOfWords_head words h
    rw [entry]
    refine ⟨?_, ?_, ?_, ?_, ?_, fun raw => ?_⟩
    · exact congrArg (BitVec.getLsbD · 0) (getD_drop words _ 0)
    · exact congrArg (BitVec.getLsbD · 1) (getD_drop words _ 0)
    · exact congrArg (BitVec.getLsbD · 2) (getD_drop words _ 0)
    · exact congrArg (fun x : Word => (x.extractLsb' 8 8).toNat) (getD_drop words _ 1)
    · exact congrArg (fun x : Word => (x.extractLsb' 0 8).toNat) (getD_drop words _ 1)
    · rw [headOfWords_class, classOfCode, getD_drop, ← Nat.add_assoc]
  · intro s p f rest request s1 set sid
    have meaning : exec .setSelect s = .next (setSelect s1 p f) := takeRequest_requested _ rfl request
    have arg : num8 (requestArgs f) 0 = set := num8_requestArgs f 0
    rw [meaning]
    refine ⟨fun bad => ?_, fun named unmapped => ?_, fun named mapped e first => ?_⟩
    · rw [setSelect_badArg (arg ▸ bad)]
    · have not_whole : ¬ whollyMapped s1.tm (setNamed set) = true := fun whole => by
        obtain ⟨k, none⟩ := unmapped
        exact (whollyMapped_iff _ _).1 whole k none
      rw [setSelect_named (arg ▸ named), arg, if_neg not_whole]
    · rw [setSelect_named (arg ▸ named), arg, if_pos ((whollyMapped_iff s1.tm (setNamed set)).2 mapped),
        copyIndex_mapped (t := s1.tm) (sid := setNamed set) (n := 0) (m := e) first,
        show copyWord 0 = 0 from rfl, Nat.add_zero]
      rfl
  · intro s a e sid staging accessing work short read place here next idle
    refine ⟨fun double => ?_, fun v returned => ⟨fun more m mapped => ?_, fun last => ?_⟩⟩
    · obtain ⟨page, word⟩ : copyPage staging.length = here.1 ∧ copyWord staging.length = here.2 :=
        Prod.mk.inj (copyPlace_eq staging.length)
      rw [exec_access (k := copyAccess) accessing rfl, copyAccess_double work double, page, word,
        endWork_eq (mgmtRead_mg s a.index)]
      rfl
    · obtain ⟨page, word⟩ : copyPage (staging.length + 1) = next.1 ∧ copyWord (staging.length + 1) = next.2 :=
        Prod.mk.inj (copyPlace_eq (staging.length + 1))
      rw [exec_access (k := copyAccess) accessing rfl, copyAccess_word work returned, if_neg (by omega),
        copyIndex_mapped (page ▸ mapped), word, continueWork_eq (mgmtRead_mg s a.index)]
      rfl
    · rw [exec_access (k := copyAccess) accessing rfl, copyAccess_word work returned, if_pos (by omega),
        finishSelect_eq]
      rfl

end Sys2Proof.Proofs
end

section
/-! SUPPORT. Reads and the scrubber (sections 8.1 to 8.3), the replies and the status word (sections 10.1, 10.2), and
the tally's periods (chapter 7). -/

namespace Sys2Proof.Proofs

open Sys2Proof Sys2Proof.Machine

variable {s : State} {p : Port} {f : Frame} {rest : List (Port × Frame)}

/-! ### The check of a read and its log (R135 to R137) -/

theorem checkAt_clean {i : Nat} (none : popCount (sparseGet blankWord s.tm.words i).changed = 0) :
    checkAt s i = .clean (sparseGet blankWord s.tm.words i).written := by
  unfold checkAt checkWord storedAt
  rw [none]
  rfl

theorem checkAt_single {i : Nat} (one : popCount (sparseGet blankWord s.tm.words i).changed = 1) :
    checkAt s i = .single (sparseGet blankWord s.tm.words i).written := by
  unfold checkAt checkWord storedAt
  rw [one]
  rfl

theorem checkAt_double {i : Nat} (two : popCount (sparseGet blankWord s.tm.words i).changed = 2) :
    checkAt s i = .double := by
  unfold checkAt checkWord storedAt
  rw [two]
  rfl

section
variable (who : Requester)

theorem noteRead_clean {i : Nat} {v : Word} (found : checkAt s i = .clean v) : noteRead s who i = s := by
  rw [noteRead, found]

theorem noteRead_single {i : Nat} {v : Word} (found : checkAt s i = .single v) :
    noteRead s who i = { s with tm := { s.tm with corrected := satInc s.tm.corrected } } := by
  rw [noteRead, found]
  rfl

theorem noteRead_double {i : Nat} (found : checkAt s i = .double) :
    noteRead s who i = raiseAlert { s with tm := { s.tm with
      uncorrected := satInc s.tm.uncorrected
      record := if s.tm.record.isSome then s.tm.record
        else .some { page := i / 256, word := i % 256, who := who } } } .ecc := by
  have logged : logDouble s.tm who i = { s.tm with
      uncorrected := satInc s.tm.uncorrected
      record := if s.tm.record.isSome then s.tm.record
        else .some { page := i / 256, word := i % 256, who := who } } := by
    unfold logDouble
    cases s.tm.record <;> rfl
  rw [noteRead, found, ← logged]
  rfl

/-- R136: a read writes the error log alone. -/
theorem noteRead_tm (s : State) (i : Nat) : ∃ corrected uncorrected record,
    (noteRead s who i).tm = { s.tm with corrected := corrected, uncorrected := uncorrected, record := record } := by
  cases found : checkAt s i with
  | clean v => rw [noteRead_clean who found]; exact ⟨_, _, _, rfl⟩
  | single v => rw [noteRead_single who found]; exact ⟨_, _, _, rfl⟩
  | double =>
    rw [noteRead_double who found, show (raiseAlert _ _).tm = _ from raiseAlert_touches _ .ecc .tm (by decide)]
    exact ⟨_, _, _, rfl⟩

/-! ### The scrub visit and the arbiter (R138, R140, R141) -/

/-- R141: the state a scrub visit leaves before its access ends. -/
def visited (s : State) (i : Nat) (words : Sparse StoredWord) : State := { noteRead s .scrubber i with
  tm := { (noteRead s .scrubber i).tm with words := words, scrubPos := s.tm.scrubPos + 1 } }

theorem visitWord_single {i : Nat} {v : Word} (found : checkAt s i = .single v) :
    visitWord s i = visited s i (sparseSet blankWord s.tm.words i { written := v, changed := 0 }) := by
  unfold visitWord
  rw [found]
  dsimp only
  unfold visited
  rw [noteRead_single .scrubber found]
  rfl

theorem visitWord_kept {i : Nat} (other : ∀ v, checkAt s i ≠ .single v) : visitWord s i = visited s i s.tm.words := by
  obtain ⟨corrected, uncorrected, record, log⟩ := noteRead_tm .scrubber s i
  have moved : visitWord s i = { noteRead s .scrubber i with
      tm := { (noteRead s .scrubber i).tm with scrubPos := (noteRead s .scrubber i).tm.scrubPos + 1 } } := by
    unfold visitWord
    cases found : checkAt s i with
    | clean v => rfl
    | single v => exact absurd found (other v)
    | double => rfl
  rw [moved, visited, log]

theorem grant_busy (busy : s.tm.access ≠ .none) : grant s = s := if_neg fun idle => busy idle.1

theorem grant_idle (idle : s.tm.access = .none) (swept : s.ct.starting = false) :
    grant s = { s with tm := grantNext s.tm } := if_pos ⟨idle, swept⟩

/-- Settles O53: the check by the changed bits, the visit by the check, the grant by the first rank that waits. -/
theorem readsAreCheckedAndTheScrubberRepairs : Obligations.ReadsAreCheckedAndTheScrubberRepairs := by
  unfold Obligations.ReadsAreCheckedAndTheScrubberRepairs
  refine ⟨fun s who i => ⟨checkAt_clean, checkAt_single, checkAt_double, fun v => noteRead_clean who,
    fun v => noteRead_single who, noteRead_double who⟩, ?_⟩
  intro s up t gives
  refine ⟨fun n runs => ?_, ?_, rfl, grant_busy, fun idle swept => ?_⟩
  · have meaning : exec .scrubIntervalExpiry s = .next (expireInterval s) := exec_released _ up
    rw [meaning, expireInterval, runs]
    rfl
  · intro a access scrub read moved
    have meaning : exec .scrubVisit s = .next (endAccess (visitWord s a.index)) := by
      rw [exec_released _ up]
      show Host.Outcome.next (endVisit s) = _
      rw [endVisit, access]
      exact congrArg Host.Outcome.next (if_pos scrub)
    rw [meaning]
    by_cases repaired : ∃ v, checkAt s a.index = .single v
    · obtain ⟨v, single⟩ := repaired
      exact .inl ⟨v, single, by rw [visitWord_single single]; rfl⟩
    · have other : ∀ v, checkAt s a.index ≠ .single v := fun v single => repaired ⟨v, single⟩
      exact .inr ⟨other, by rw [visitWord_kept other]; rfl⟩
  · rw [grant_idle idle swept, grantNext]
    refine ⟨fun due => ?_, fun free i commit => ?_, fun free commit i opt => ?_, fun free commit opt i k mgmt => ?_⟩
    · rw [if_pos due]
    · rw [if_neg (by rw [free]; nofun), commit]
    · rw [if_neg (by rw [free]; nofun), commit, opt]
    · rw [if_neg (by rw [free]; nofun), commit, opt, mgmt]

end

/-! ### The tally (R122, R128, R129, R132) -/

/-- The count field of a key. -/
def fieldOfKey (k : Nat) : Option TallyField :=
  if k < 21 then counterFields[k]? else
    let n := (k - 21) / 3
    .some (if (k - 21) % 3 = 0 then .pieces n else if (k - 21) % 3 = 1 then .feet n else .bin n)

theorem fieldOfKey_above {r : Nat} (p : Nat) (small : r < 3) : fieldOfKey (21 + r + 3 * p) =
    .some (if r = 0 then .pieces p else if r = 1 then .feet p else .bin p) := by
  have form : (21 + r + 3 * p - 21) % 3 = r := by omega
  have item : (21 + r + 3 * p - 21) / 3 = p := by omega
  rw [fieldOfKey, if_neg (by omega), form, item]

theorem fieldOfKey_tallyKey (x : TallyField) : fieldOfKey (tallyKey x) = .some x := by
  cases x with
  | pieces p => exact fieldOfKey_above p (by decide : 0 < 3)
  | feet p => exact fieldOfKey_above p (by decide : 1 < 3)
  | bin b => exact fieldOfKey_above b (by decide : 2 < 3)
  | outcome k => cases k <;> rfl
  | cause c => cases c <;> rfl
  | redirects | overQuota | catchDiversions | staleCommits | quickPieces | marksAccepted | marksLate | marksRefused
  | clearings => rfl

/-- No two count fields share a key. -/
theorem tallyKey_inj {x y : TallyField} (same : tallyKey y = tallyKey x) : y = x :=
  Option.some.inj ((fieldOfKey_tallyKey y).symm.trans ((congrArg fieldOfKey same).trans (fieldOfKey_tallyKey x)))

/-- R122: a count added reaches its own field alone. -/
theorem add_count {t : TallyPeriod} (canonical : sparseWf 0 t.counts = true) (x y : TallyField) (n : Nat) :
    ((t.add x n).count y).toNat = if y = x then min 16777215 ((t.count x).toNat + n) else (t.count y).toNat := by
  have read : (t.add x n).count y = if tallyKey y = tallyKey x then
      BitVec.ofNat 24 (min 16777215 ((t.count x).toNat + n)) else t.count y := sparseGet_set 0 canonical _ _ _
  rw [read]
  by_cases same : y = x
  · subst same
    rw [if_pos rfl, if_pos rfl, BitVec.toNat_ofNat]
    exact Nat.mod_eq_of_lt (by omega)
  · rw [if_neg same, if_neg fun key => same (tallyKey_inj key)]

/-- R132: the closed period changes only where a period may be closed. -/
theorem closed_step {given : Given} (never : ¬ given.closes) {c : Option ClosedPeriod} (l m : Line)
    (step : LineStep given l m) (h : l.tally.closed = c) : m.tally.closed = c := by
  cases step with
  | closed _ permitted => exact absurd permitted never
  | slots | moded | next | freed | opened | filled | lost | stored | quotaSet | committed | retired | joined | started
    | ended | withdrawn | cleared | reset | quiet | managed | counted => exact h

/-- R128: the guard of a TALLY-CLOSE. -/
theorem tallyClose_passes (closes : num8 (requestArgs f) 0 ≠ 0 ∨ word16 (requestArgs f) 1 = s.tu.current.number) :
    tallyClose s p f = reply (closePeriod s) p f .done (closeData (closePeriod s)) := by
  refine if_neg fun refused => ?_
  rcases closes with any | expected
  · exact any (congrArg BitVec.toNat refused.1)
  · exact refused.2 expected

theorem tallyClose_refused (guarded : ¬ (num8 (requestArgs f) 0 ≠ 0 ∨ word16 (requestArgs f) 1 = s.tu.current.number)) :
    tallyClose s p f = reply s p f .badArg (closeData s) := by
  obtain ⟨zero, other⟩ := not_or.1 guarded
  exact if_pos ⟨BitVec.eq_of_toNat_eq (not_not.1 zero), other⟩

/-- Settles O58: the keys of count fields, the guard, and the changes of the line. -/
theorem tallyCloseBeginsTheNextPeriod : Obligations.TallyCloseBeginsTheNextPeriod := by
  unfold Obligations.TallyCloseBeginsTheNextPeriod
  refine ⟨fun t x n canonical => ⟨fun y => add_count canonical x y n, rfl, rfl⟩, ?_, ?_⟩
  · intro s p f rest request s1 args now next closes
    have meaning : exec .tallyClose s = .next (tallyClose s1 p f) := takeRequest_requested _ rfl request
    rw [meaning]
    refine ⟨fun passes => ?_, fun refused => ?_⟩
    · rw [tallyClose_passes (s := s1) passes]
      rfl
    · rw [tallyClose_refused (s := s1) refused]
      have data : closeData s1 = be16 now.number ++ optSeq (s.tu.closed.map (·.period.number)) := rfl
      rw [data]
      cases s.tu.closed <;> rfl
  · intro c s t h other on
    exact (exec_along h).keeps (closed_step (c := s.tu.closed) (by simp [givenBy, other, on])) rfl

/-! ### The status word (R180, Table 11-7) -/

/-- A field of two bits, and the flags, at their places in a word. -/
def packed (mode active errU errD : BitVec 2) (upU upD quick alert log starting : Bool) : Word :=
  let bit (b : Bool) (i : Nat) : Word := if b then 1#16 <<< i else 0
  mode.setWidth 16 ||| (active.setWidth 16 <<< 2) ||| bit upU 4 ||| bit upD 5 ||| (errU.setWidth 16 <<< 6)
    ||| (errD.setWidth 16 <<< 8) ||| bit quick 10 ||| bit alert 11 ||| bit log 12 ||| bit starting 13

theorem flagBit_getLsbD (b : Bool) (i j : Nat) (small : j < 16) :
    (if b then 1#16 <<< i else 0 : Word).getLsbD j = (b && decide (i = j)) := by
  cases b with
  | false => simp
  | true =>
    rw [if_pos rfl, BitVec.getLsbD_shiftLeft, BitVec.getLsbD_one, Bool.eq_iff_iff]
    simp only [small, decide_true, Bool.true_and, Bool.and_eq_true, Bool.not_eq_true', decide_eq_false_iff_not,
      decide_eq_true_eq]
    omega

theorem packed_getLsbD (mode active errU errD : BitVec 2) (upU upD quick alert log starting : Bool) (j : Nat)
    (small : j < 16) : (packed mode active errU errD upU upD quick alert log starting).getLsbD j =
      (mode.getLsbD j || (decide (2 ≤ j) && active.getLsbD (j - 2)) || (upU && decide (4 = j))
        || (upD && decide (5 = j)) || (decide (6 ≤ j) && errU.getLsbD (j - 6))
        || (decide (8 ≤ j) && errD.getLsbD (j - 8)) || (quick && decide (10 = j)) || (alert && decide (11 = j))
        || (log && decide (12 = j)) || (starting && decide (13 = j))) := by
  have within (k : Nat) : decide (j - k < 16) = true := decide_eq_true (by omega)
  have above (k : Nat) : (!decide (j < k)) = decide (k ≤ j) := by rw [← decide_not, decide_eq_decide, Nat.not_lt]
  unfold packed
  simp only [BitVec.getLsbD_or, BitVec.getLsbD_shiftLeft, BitVec.getLsbD_setWidth, flagBit_getLsbD _ _ _ small,
    within, above, small, decide_true, Bool.true_and]

/-- Two bits of a word. -/
theorem field_eq {w : Word} {i : Nat} {x : BitVec 2} (low : w.getLsbD i = x.getLsbD 0)
    (high : w.getLsbD (i + 1) = x.getLsbD 1) : w.extractLsb' i 2 = x := by
  apply BitVec.eq_of_getLsbD_eq
  intro k small
  rw [BitVec.getLsbD_extractLsb', decide_eq_true small, Bool.true_and]
  match k, small with
  | 0, _ => exact low
  | 1, _ => exact high

/-- R180: the status word is the packed one. -/
theorem statusWord_eq (s : State) : statusWord s = packed (BitVec.ofNat 2 (modeCode s.ct.mode))
    (match s.tm.active with | .some .s0 => 0 | .some .s1 => 1 | .none => 3)
    (BitVec.ofNat 2 (errCode s.lu.u.errState)) (BitVec.ofNat 2 (errCode s.lu.d.errState))
    (s.lu.u.link == .up) (s.lu.d.link == .up) s.opt.lastQuick (anyAlertPending s) s.tm.record.isSome
    s.ct.starting := by
  have mode (m : LineMode) : BitVec.ofNat 16 (modeCode m) = (BitVec.ofNat 2 (modeCode m)).setWidth 16 := by
    cases m <;> rfl
  have err (e : ErrorState) : BitVec.ofNat 16 (errCode e) = (BitVec.ofNat 2 (errCode e)).setWidth 16 := by
    cases e <;> rfl
  unfold statusWord
  rw [mode, err, err]
  cases s.tm.active with
  | none => rfl
  | some sid => cases sid <;> rfl

/-- R170, R180: an ALERT of some kind waits on D. -/
theorem anyAlertPending_eq (s : State) :
    anyAlertPending s = s.lu.d.tx.any fun x => match x with | .alert _ _ => true | .frame _ _ => false := by
  unfold anyAlertPending alertPending
  induction s.lu.d.tx with
  | nil => rfl
  | cons x l ih =>
    rw [List.any_cons, List.any_cons, List.any_cons, List.any_cons, List.any_cons, List.any_cons, ← ih]
    cases x with
    | frame n f => rfl
    | alert k n => cases k <;> simp [TxItem.isAlert]

theorem packed_fields {mode active errU errD : BitVec 2} {upU upD quick alert log starting : Bool} {w : Word}
    (is_packed : w = packed mode active errU errD upU upD quick alert log starting) :
    w.extractLsb' 0 2 = mode ∧ w.extractLsb' 2 2 = active ∧ w.getLsbD 4 = upU ∧ w.getLsbD 5 = upD
      ∧ w.extractLsb' 6 2 = errU ∧ w.extractLsb' 8 2 = errD ∧ w.getLsbD 10 = quick ∧ w.getLsbD 11 = alert
      ∧ w.getLsbD 12 = log ∧ w.getLsbD 13 = starting ∧ w.extractLsb' 14 2 = 0 := by
  subst is_packed
  refine ⟨field_eq ?_ ?_, field_eq ?_ ?_, ?_, ?_, field_eq ?_ ?_, field_eq ?_ ?_, ?_, ?_, ?_, ?_, field_eq ?_ ?_⟩ <;>
    · rw [packed_getLsbD _ _ _ _ _ _ _ _ _ _ _ (by decide)]
      simp

/-! ### Bad and lost requests (R177 to R179) -/

/-- R178, Table 11-6: the argument bytes of each code. -/
def argLengths : List Nat := [0, 4, 4, 5, 5, 1, 1, 20, 10, 3, 2, 5, 3, 5, 3, 1, 2, 0]

theorem argLength_eq (code : Nat) :
    argLength code = if 1 ≤ code ∧ code ≤ 17 then .some (argLengths.getD code 0) else .none := by
  have named : ∀ code < 18, argLength code =
      if 1 ≤ code ∧ code ≤ 17 then .some (argLengths.getD code 0) else .none := by
    decide
  by_cases small : code < 18
  · exact named code small
  · obtain ⟨n, rfl⟩ := Nat.exists_eq_add_of_le' (Nat.not_lt.1 small)
    rw [if_neg (by omega)]
    rfl

theorem soundRequest_iff (f : Frame) : soundRequest f = true ↔ 3 ≤ f.body.length ∧ 1 ≤ num8 f.body 0
    ∧ num8 f.body 0 ≤ 17 ∧ 3 + argLengths.getD (num8 f.body 0) 0 ≤ f.body.length := by
  rw [soundRequest, Bool.and_eq_true, decide_eq_true_eq, argLength_eq]
  refine and_congr_right fun _ => ?_
  by_cases named : 1 ≤ num8 f.body 0 ∧ num8 f.body 0 ≤ 17
  · rw [if_pos named, Option.any_some, decide_eq_true_eq, ← and_assoc]
    exact ⟨fun long => ⟨named, long⟩, And.right⟩
  · rw [if_neg named, ← and_assoc]
    exact ⟨nofun, fun h => absurd h.1 named⟩

/-- R175, R178: a request unsound is taken. -/
theorem takeRequestIf_head {test : Frame → Bool} {k : State → Port → Frame → State} (idle : s.mg.exec = .none)
    (swept : s.ct.starting = false) (head : s.lu.mgmtQ = (p, f) :: rest) (class_ : frameClass f = 32)
    (passes : test f = true) : takeRequestIf test k s = k (mgmtTaken s rest) p f := by
  have ready : mgmtReady s = true := by simp [mgmtReady, idle, swept]
  rw [takeRequestIf, if_pos ready, head]
  exact (if_pos ⟨class_, passes⟩).trans (congrArg (k · p f) (popRx_mgmt head))

/-- Settles O59: the packed word field by field, and what makes a request unsound. -/
theorem badAndLostRequestsAreAnswered : Obligations.BadAndLostRequestsAreAnswered := by
  unfold Obligations.BadAndLostRequestsAreAnswered
  refine ⟨fun s => ?_, ?_⟩
  · obtain ⟨mode, active, upU, upD, errU, errD, quick, alert, log, starting, zero⟩ := packed_fields (statusWord_eq s)
    exact ⟨mode, active, upU, upD, errU, errD, quick, alert.trans (anyAlertPending_eq s), log, starting, zero⟩
  · intro s p f rest up args code sound
    refine ⟨fun idle swept head class_ bad => ?_, fun lost => ?_, fun r data => ?_⟩
    · have meaning : exec .badRequest s = .next (takeRequestIf (fun f => !soundRequest f) refuseBody s) :=
        exec_released _ up
      have unsound : (!soundRequest f) = true := by
        rw [Bool.not_eq_true', ← Bool.not_eq_true]
        exact fun ok => bad ((soundRequest_iff f).1 ok)
      rw [meaning, takeRequestIf_head idle swept head class_ unsound]
      rfl
    · have meaning : exec .mgmtQueueOverflow s = .next (takeMgmtOverflow s) := exec_released _ up
      rw [meaning, takeMgmtOverflow, lost]
      rfl
    · have origin : frameOrigin f = (f.b1.extractLsb' 0 5).toNat := congrArg BitVec.toNat (setWidth_eq_extract f.b1)
      rw [← origin]
      rfl

end Sys2Proof.Proofs
end

section
/-! SUPPORT. The requests that write one entry (sections 6.4, 6.5, 8.4, 10.3). -/

namespace Sys2Proof.Proofs

open Sys2Proof Sys2Proof.Machine

variable {s : State} {p : Port} {f : Frame} {rest : List (Port × Frame)}

theorem byteAt_eq_zero (args : List Byte) (i : Nat) : byteAt args i = 0 ↔ num8 args i = 0 :=
  ⟨congrArg BitVec.toNat, fun h => BitVec.eq_of_toNat_eq h⟩

/-! ### MAP-WRITE (R144) -/

/-- R144: what refuses the arguments of a MAP-WRITE. -/
def mapArgsBad (args : List Byte) : Prop :=
  1 < num8 args 0 ∨ 9 < num8 args 1 ∨ (num8 args 2 ≠ 0 ∧ 31 < num8 args 3)

theorem askedEntry_beyond (args : List Byte) :
    (askedEntry args).any (fun e => decide (31 < e.page)) = true ↔ num8 args 2 ≠ 0 ∧ 31 < num8 args 3 := by
  unfold askedEntry
  by_cases unmapped : num8 args 2 = 0
  · rw [if_pos unmapped]
    exact ⟨nofun, fun h => absurd unmapped h.1⟩
  · rw [if_neg unmapped, Option.any_some, decide_eq_true_eq]
    exact ⟨fun beyond => ⟨unmapped, beyond⟩, And.right⟩

theorem mapWrite_bad (bad : mapArgsBad (requestArgs f)) : mapWrite s p f = reply s p f .badArg [] := by
  unfold mapWrite
  dsimp only
  rw [setOf_eq]
  by_cases named : 1 < num8 (requestArgs f) 0
  · rw [if_pos named]
  · rw [if_neg named]
    exact if_pos ((bad.resolve_left named).imp_right (askedEntry_beyond _).2)

/-- R144: a set in use is not written. -/
def setHeld (s : State) (sid : SetId) : Prop := s.tm.active = .some sid ∨ ∃ j ∈ s.opt.job, j.set = sid

theorem setHeld_iff (s : State) (sid : SetId) :
    s.tm.active = .some sid ∨ latchedSet s = .some sid ↔ setHeld s sid :=
  or_congr_right Option.map_eq_some_iff

section
variable (good : ¬ mapArgsBad (requestArgs f))
include good

theorem mapWrite_good : mapWrite s p f =
    if s.tm.active = .some (setNamed (num8 (requestArgs f) 0))
      ∨ latchedSet s = .some (setNamed (num8 (requestArgs f) 0))
    then reply s p f .inUse []
    else reply (s.updTm fun t => setMapEntry t (setNamed (num8 (requestArgs f) 0)) (num8 (requestArgs f) 1)
        (askedEntry (requestArgs f))) p f .done
      (([byteAt (requestArgs f) 0, byte (num8 (requestArgs f) 1)]
          ++ mapEntryBytes (entryOf s.tm (setNamed (num8 (requestArgs f) 0)) (num8 (requestArgs f) 1)))
        ++ ([byteAt (requestArgs f) 0, byte (num8 (requestArgs f) 1)]
          ++ mapEntryBytes (askedEntry (requestArgs f)))) := by
  obtain ⟨named, fits⟩ := not_or.1 good
  unfold mapWrite
  dsimp only
  rw [setOf_eq, if_neg named]
  exact if_neg fun bad => fits (bad.imp_right (askedEntry_beyond _).1)

theorem mapWrite_held (held : setHeld s (setNamed (num8 (requestArgs f) 0))) :
    mapWrite s p f = reply s p f .inUse [] := by
  rw [mapWrite_good good, if_pos ((setHeld_iff s _).2 held)]

end

/-- R142: an entry of a page map, replaced. -/
theorem setMapEntry_fin (t : TableMemory) (n : Nat) (k : Fin 10) (e : Option MapEntry) :
    setMapEntry t (setNamed n) k.val e =
      if n = 0 then { t with map0 := t.map0.set k e } else { t with map1 := t.map1.set k e } := by
  unfold setNamed
  split <;> (unfold setMapEntry; dsimp only; rw [setIfInBounds_fin])

theorem entryOf_fin (t : TableMemory) (sid : SetId) (k : Fin 10) : entryOf t sid k.val = (mapOf t sid)[k] := by
  rw [entryOf, Vector.getElem?_eq_getElem k.isLt]
  rfl

theorem mapWrite_free (good : ¬ mapArgsBad (requestArgs f)) (free : ¬ setHeld s (setNamed (num8 (requestArgs f) 0)))
    {k : Fin 10} (entry : k.val = num8 (requestArgs f) 1) : mapWrite s p f =
      reply { s with tm := if num8 (requestArgs f) 0 = 0 then
            { s.tm with map0 := s.tm.map0.set k (askedEntry (requestArgs f)) }
          else { s.tm with map1 := s.tm.map1.set k (askedEntry (requestArgs f)) } } p f .done
        ([byteAt (requestArgs f) 0, byte k.val]
          ++ mapEntryBytes (mapOf s.tm (setNamed (num8 (requestArgs f) 0)))[k]
          ++ [byteAt (requestArgs f) 0, byte k.val] ++ mapEntryBytes (askedEntry (requestArgs f))) := by
  rw [mapWrite_good good, if_neg fun held => free ((setHeld_iff s _).1 held), ← entry, entryOf_fin,
    List.append_assoc (_ ++ _)]
  dsimp only [State.updTm]
  rw [setMapEntry_fin]

/-! ### FILTER-WRITE (R181) -/

theorem destOf_named {n : Nat} (named : n ≤ 1) : ∃ d, destOf n = .some d ∧ destCode d = n :=
  match n, named with
  | 0, _ => ⟨.any, rfl, rfl⟩
  | 1, _ => ⟨.own, rfl, rfl⟩

theorem portSelOf_named {n : Nat} (named : n ≤ 2) : ∃ q, portSelOf n = .some q ∧ portSelCode q = n :=
  match n, named with
  | 0, _ => ⟨.u, rfl, rfl⟩
  | 1, _ => ⟨.d, rfl, rfl⟩
  | 2, _ => ⟨.either, rfl, rfl⟩

theorem actionOf_named {n : Nat} (named : n ≤ 3) : ∃ a, actionOf n = .some a ∧ actionCode a = n :=
  match n, named with
  | 0, _ => ⟨.consume, rfl, rfl⟩
  | 1, _ => ⟨.consumeForward, rfl, rfl⟩
  | 2, _ => ⟨.forward, rfl, rfl⟩
  | 3, _ => ⟨.drop, rfl, rfl⟩

theorem queueOf_named {n : Nat} (named : n ≤ 3) : ∃ q, queueOf n = .some q ∧ queueCode q = n :=
  match n, named with
  | 0, _ => ⟨.scan, rfl, rfl⟩
  | 1, _ => ⟨.mark, rfl, rfl⟩
  | 2, _ => ⟨.mgmt, rfl, rfl⟩
  | 3, _ => ⟨.sorter, rfl, rfl⟩

theorem destOf_above {n : Nat} (above : 1 < n) : destOf n = .none :=
  match n, above with
  | _ + 2, _ => rfl

theorem portSelOf_above {n : Nat} (above : 2 < n) : portSelOf n = .none :=
  match n, above with
  | _ + 3, _ => rfl

theorem actionOf_above {n : Nat} (above : 3 < n) : actionOf n = .none :=
  match n, above with
  | _ + 4, _ => rfl

theorem queueOf_above {n : Nat} (above : 3 < n) : queueOf n = .none :=
  match n, above with
  | _ + 4, _ => rfl

/-- R181: what refuses the fields of a FILTER-WRITE. -/
def filterArgsBad (args : List Byte) : Prop :=
  63 < num8 args 2 ∨ 63 < num8 args 3 ∨ 31 < num8 args 4 ∨ 31 < num8 args 5 ∨ 1 < num8 args 6 ∨ 2 < num8 args 7
    ∨ 3 < num8 args 8 ∨ 3 < num8 args 9

/-- R181: the entry the fields give. -/
def filterGiven (args : List Byte) (e : Filter) : Prop :=
  e.enabled = (byteAt args 1 != 0) ∧ e.classMatch.toNat = num8 args 2 ∧ e.classMask.toNat = num8 args 3
    ∧ e.originMatch.toNat = num8 args 4 ∧ e.originMask.toNat = num8 args 5 ∧ destCode e.dest = num8 args 6
    ∧ portSelCode e.port = num8 args 7 ∧ actionCode e.action = num8 args 8 ∧ queueCode e.queue = num8 args 9
    ∧ e.hits = 0

theorem askedFilter_bad {args : List Byte} (bad : filterArgsBad args) : askedFilter args = .none := by
  unfold askedFilter
  split
  · have code : 1 < num8 args 6 ∨ 2 < num8 args 7 ∨ 3 < num8 args 8 ∨ 3 < num8 args 9 := by
      unfold filterArgsBad at bad
      omega
    split
    · rename_i dest port action queue
      rcases code with h | h | h | h
      · rw [destOf_above h] at dest; cases dest
      · rw [portSelOf_above h] at port; cases port
      · rw [actionOf_above h] at action; cases action
      · rw [queueOf_above h] at queue; cases queue
    · rfl
  · rfl

theorem narrowed_toNat {n : Nat} {args : List Byte} {i : Nat} (small : num8 args i < 2 ^ n) :
    ((byteAt args i).setWidth n).toNat = num8 args i := by
  rw [BitVec.toNat_setWidth]
  exact Nat.mod_eq_of_lt small

theorem askedFilter_good {args : List Byte} (good : ¬ filterArgsBad args) :
    ∃ e, askedFilter args = .some e ∧ filterGiven args e := by
  unfold filterArgsBad at good
  obtain ⟨dest, isDest, destCode⟩ := destOf_named (n := num8 args 6) (by omega)
  obtain ⟨port, isPort, portCode⟩ := portSelOf_named (n := num8 args 7) (by omega)
  obtain ⟨action, isAction, actionCode⟩ := actionOf_named (n := num8 args 8) (by omega)
  obtain ⟨queue, isQueue, queueCode⟩ := queueOf_named (n := num8 args 9) (by omega)
  unfold askedFilter
  rw [if_pos (by omega), isDest, isPort, isAction, isQueue]
  exact ⟨_, rfl, rfl, narrowed_toNat (by omega), narrowed_toNat (by omega), narrowed_toNat (by omega),
    narrowed_toNat (by omega), destCode, portCode, actionCode, queueCode, rfl⟩

theorem filterAt_fin (s : State) (k : Fin 16) : filterAt s k.val = s.lu.filters[k] := by
  rw [filterAt, Vector.getElem?_eq_getElem k.isLt]
  rfl

theorem filterWrite_above (above : 15 < num8 (requestArgs f) 0) : filterWrite s p f = reply s p f .badArg [] :=
  if_pos above

section
variable {k : Fin 16} (entry : k.val = num8 (requestArgs f) 0)
include entry

theorem filterWrite_bad (bad : filterArgsBad (requestArgs f)) : filterWrite s p f =
    reply s p f .badArg (byte (num8 (requestArgs f) 0) :: filterBytes s.lu.filters[k]) := by
  unfold filterWrite
  dsimp only
  rw [← entry, if_neg (by omega), askedFilter_bad bad, filterAt_fin]

theorem filterWrite_good {e : Filter} (asked : askedFilter (requestArgs f) = .some e) : filterWrite s p f =
    reply { s with lu := { s.lu with filters := s.lu.filters.set k e } } p f .done
      ((byte (num8 (requestArgs f) 0) :: filterBytes s.lu.filters[k])
        ++ byte (num8 (requestArgs f) 0) :: filterBytes e) := by
  unfold filterWrite
  dsimp only
  rw [← entry, if_neg (by omega), asked, filterAt_fin]
  dsimp only [State.updLu]
  rw [setIfInBounds_fin]

end

/-! ### BIN-WRITE and QUOTA-SET (R112, R115) -/

theorem binWrite_bad (bad : 47 < num8 (requestArgs f) 0 ∨ 4095 < num16 (requestArgs f) 1) :
    binWrite s p f = reply s p f .badArg [] := if_pos bad

theorem binWrite_good (good : ¬ (47 < num8 (requestArgs f) 0 ∨ 4095 < num16 (requestArgs f) 1)) : binWrite s p f =
    let n := num8 (requestArgs f) 0
    let capacity := num16 (requestArgs f) 1
    let load := (binAt s.bos n).load
    if n ≠ 0 ∧ capacity < load then
      reply ((setCapacity s n load).updStoreCounts fun c => { c with clampedWrites := satInc c.clampedWrites })
        p f .clamped ([byte n] ++ be16n load)
    else reply (setCapacity s n capacity) p f .done ([byte n] ++ be16n capacity) := if_neg good

theorem quotaSet_bad (bad : 639 < num16 (requestArgs f) 0) : quotaSet s p f = reply s p f .badArg [] := if_pos bad

theorem quotaSet_good (good : num16 (requestArgs f) 0 ≤ 639) : quotaSet s p f =
    reply (s.updBos fun b => setQuota b (num16 (requestArgs f) 0) (askedQuota (requestArgs f))) p f .done
      (quotaEntryBytes (num16 (requestArgs f) 0) (quotaAt s.bos (num16 (requestArgs f) 0))
        ++ quotaEntryBytes (num16 (requestArgs f) 0) (askedQuota (requestArgs f))) :=
  if_neg (Nat.not_lt.2 good)

theorem askedQuota_eq (args : List Byte) :
    askedQuota args = if num8 args 2 = 0 then .none else .some (num16 args 3) :=
  if_congr (byteAt_eq_zero args 2) rfl rfl

/-- Settles O56, request by request. -/
theorem entryWritesChangeOneEntry : Obligations.EntryWritesChangeOneEntry := by
  unfold Obligations.EntryWritesChangeOneEntry
  intro mapBytes filterFields quotaBytes s p f rest s1 args
  have map_layout (e : Option MapEntry) : mapEntryBytes e = mapBytes e := by cases e <;> rfl
  have filter_layout (e : Filter) : filterBytes e = filterFields e := rfl
  have quota_layout (n : Nat) (q : Option Nat) : quotaEntryBytes n q = quotaBytes n q := by cases q <;> rfl
  refine ⟨fun request => ?_, fun request => ?_, fun request => ?_, fun request => ?_⟩
  · have meaning : exec .mapWrite s = .next (mapWrite s1 p f) := takeRequest_requested _ rfl request
    intro set sid e bad held
    rw [meaning]
    refine ⟨fun refused => ?_, fun good inUse => ?_, fun k entry good free => ?_⟩
    · rw [mapWrite_bad refused]
    · rw [mapWrite_held (s := s1) good inUse]
    · rw [mapWrite_free (s := s1) good free entry, map_layout, map_layout]
      rfl
  · have meaning : exec .filterWrite s = .next (filterWrite s1 p f) := takeRequest_requested _ rfl request
    intro n bad
    rw [meaning]
    refine ⟨fun above => by rw [filterWrite_above above], fun k entry => ?_⟩
    intro old
    refine ⟨fun refused => ?_, fun good => ?_⟩
    · rw [filterWrite_bad (s := s1) entry refused]
      rfl
    · obtain ⟨e, asked, enabled, classMatch, classMask, originMatch, originMask, dest, port, action, queue, hits⟩ :=
        askedFilter_good good
      refine ⟨e, enabled, classMatch, classMask, originMatch, originMask, dest, port, action, queue, hits, ?_⟩
      rw [filterWrite_good (s := s1) entry asked]
      rfl
  · have meaning : exec .binWrite s = .next (binWrite s1 p f) := takeRequest_requested _ rfl request
    intro n asked load sets
    rw [meaning]
    refine ⟨fun bad => by rw [binWrite_bad bad], fun named small => ?_⟩
    have good : ¬ (47 < num8 (requestArgs f) 0 ∨ 4095 < num16 (requestArgs f) 1) :=
      not_or.2 ⟨Nat.not_lt.2 named, Nat.not_lt.2 small⟩
    rw [binWrite_good good]
    refine ⟨fun clamped => ?_, fun fits => ?_⟩
    · exact congrArg Host.Outcome.next (if_pos clamped)
    · exact congrArg Host.Outcome.next (if_neg fits)
  · have meaning : exec .quotaSet s = .next (quotaSet s1 p f) := takeRequest_requested _ rfl request
    intro n q
    rw [meaning]
    refine ⟨fun bad => by rw [quotaSet_bad bad], fun good => ?_⟩
    rw [quotaSet_good good, askedQuota_eq, quota_layout, quota_layout]
    rfl

end Sys2Proof.Proofs
end

section
/-! SUPPORT. The requests that read the state, and their layouts (sections 6.4, 6.5, 7.7, 10.4, 11.3). -/

namespace Sys2Proof.Proofs

open Sys2Proof Sys2Proof.Machine

variable {s : State} {p : Port} {f : Frame} {rest : List (Port × Frame)}

/-! ### Layouts (R190, R191) -/

/-- R190: the condition byte of a BIN-READ. -/
theorem binBytes_eq (b : BinStore) (n : Nat) : binBytes b n = be16n (binAt b n).capacity ++ be16n (binAt b n).fill
    ++ [byte (binAt b n).reserved, flagByte (binAt b n).outOfService,
      if n = 0 then 0 else if (binAt b n).outOfService then 2
      else if (binAt b n).capacity ≤ (binAt b n).fill + (binAt b n).reserved then 1 else 0] := by
  have condition : (if binOpen n (binAt b n) then 0 else if (binAt b n).outOfService then 2 else 1 : Byte) =
      if n = 0 then 0 else if (binAt b n).outOfService then 2
      else if (binAt b n).capacity ≤ (binAt b n).fill + (binAt b n).reserved then 1 else 0 := by
    by_cases catchBin : n = 0
    · rw [if_pos catchBin, catchBin]
      rfl
    · rw [if_neg catchBin]
      cases out : (binAt b n).outOfService with
      | true => simp [binOpen, catchBin, out]
      | false =>
        have isOpen : binOpen n (binAt b n)
            = decide ((binAt b n).fill + (binAt b n).reserved < (binAt b n).capacity) := by
          rw [binOpen, beq_false_of_ne catchBin, out]
          rfl
        rw [isOpen]
        by_cases full : (binAt b n).capacity ≤ (binAt b n).fill + (binAt b n).reserved
        · rw [decide_eq_false (Nat.not_lt.2 full), if_pos full]
          rfl
        · rw [decide_eq_true (Nat.not_le.1 full), if_neg full]
          rfl
  unfold binBytes
  dsimp only
  rw [condition]

/-- Bits set one by one. -/
theorem foldl_bits_getLsbD (q : Nat → Bool) (bit : Nat → Byte) (j : Nat) (l : List Nat) (a : Byte) :
    (l.foldl (fun acc i => if q i then acc ||| bit i else acc) a).getLsbD j
      = (a.getLsbD j || l.any fun i => q i && (bit i).getLsbD j) := by
  induction l generalizing a with
  | nil => simp
  | cons i l ih =>
    rw [List.foldl_cons, ih, List.any_cons]
    cases q i <;> simp [Bool.or_assoc]

/-- R191: the bits of a presence bitmap, the first in bit 7. -/
theorem presenceByte_getLsbD (present : Nat → Bool) (k : Nat) {j : Nat} (small : j < 8) :
    (presenceByte present k).getLsbD (7 - j) = present (8 * k + j) := by
  have place : ∀ j < 8, ∀ i < 8, (0x80#8 >>> i).getLsbD (7 - j) = decide (i = j) := by decide
  have zero : (0 : Byte).getLsbD (7 - j) = false := BitVec.getLsbD_zero
  unfold presenceByte
  rw [foldl_bits_getLsbD, zero, Bool.false_or, Bool.eq_iff_iff, List.any_eq_true]
  constructor
  · rintro ⟨i, within, set⟩
    rw [place j small i (List.mem_range.1 within), Bool.and_eq_true, decide_eq_true_eq] at set
    obtain ⟨set, rfl⟩ := set
    exact set
  · exact fun set => ⟨j, List.mem_range.2 small, by rw [set, place j small j small]; simp⟩

/-- R191: the presence bitmap of a run of products. -/
def presenceBytes (b : BinStore) (first count : Nat) : List Byte :=
  (List.range ((count + 7) / 8)).map (presenceByte fun k => decide (k < count) && (quotaAt b (first + k)).isSome)

theorem presenceBytes_length (b : BinStore) (first count : Nat) :
    (presenceBytes b first count).length = (count + 7) / 8 := by
  simp [presenceBytes]

theorem presenceBytes_bit (b : BinStore) (first count : Nat) {m : Nat} (small : m < 8 * ((count + 7) / 8)) :
    ((presenceBytes b first count).getD (m / 8) 0).getLsbD (7 - m % 8) = true
      ↔ m < count ∧ quotaAt b (first + m) ≠ .none := by
  have within : m / 8 < (count + 7) / 8 := by omega
  have here : (presenceBytes b first count).getD (m / 8) 0 = presenceByte
      (fun k => decide (k < count) && (quotaAt b (first + k)).isSome) (m / 8) := by
    simp [presenceBytes, List.getD_eq_getElem?_getD, within]
  rw [here, presenceByte_getLsbD _ _ (Nat.mod_lt m (by decide)), Nat.div_add_mod, Bool.and_eq_true,
    decide_eq_true_eq, Option.isSome_iff_ne_none]

/-- Table 10-4: LINK, its counters together. -/
theorem linkGroup_eq (s : State) : linkGroup s =
    portBytes s.lu.u ++ portBytes s.lu.d
      ++ queueBytes s.lu .scan ++ queueBytes s.lu .mark ++ queueBytes s.lu .mgmt ++ queueBytes s.lu .sorter
      ++ [s.lu.sorterDropped, s.lu.merged.bin, s.lu.merged.port, s.lu.merged.chain, s.lu.merged.ecc,
        s.lu.merged.scanLoss].flatMap be16
      ++ ([.bin, .port, .chain, .ecc, .scanLoss].map fun k => flagByte (alertPending s k))
      ++ be16 s.mg.shortRequests := by
  unfold linkGroup
  rw [List.flatMap_cons (x := s.lu.sorterDropped)]
  simp only [List.append_assoc]

theorem cutBytes_eq (cuts : List Nat) : cutBytes cuts =
    [byte cuts.length] ++ opt16 cuts[0]? ++ opt16 cuts[1]? ++ opt16 cuts[2]? ++ opt16 cuts[3]? := by
  simp [cutBytes, List.range_succ]

/-- Table 10-4: OPTIMIZER, by the job. -/
theorem optimizerGroup_eq (s : State) : optimizerGroup s = optCountBytes s.opt.counts ++ [byte s.opt.queue.length]
    ++ optSeq s.opt.queue.head? ++ optSeq (s.opt.job.map (·.lug)) ++ match s.opt.job with
      | .none => [0xFF, Config.quickOfNoJob]
      | .some j => [setCode (.some j.set), flagByte j.quick] := by
  unfold optimizerGroup latchedSet
  rw [List.append_assoc _ [_]]
  cases s.opt.job <;> rfl

theorem settingsGroup_eq (s : State) : settingsGroup s = be16n s.settings.countsPerStep ++ be16n s.settings.tol
    ++ be16n s.settings.lead ++ [byte s.settings.dScanwin, byte s.settings.dLock, byte s.settings.dTrim,
      byte s.settings.dSort, match s.settings.policy with | .optimize => 0 | .recycle => 1, byte s.settings.quick]
    ++ pairBytes s.settings.bypassPair ++ [byte s.settings.bypassBin, byte s.settings.ownAddress]
    ++ be16n s.settings.scrubInterval := by
  dsimp only [settingsGroup]
  cases s.settings.policy <;> rfl

theorem flagPair (x y : Bool) : flagByte x ||| (flagByte y <<< 1) = flagByte x + 2 * flagByte y := by
  cases x <;> cases y <;> rfl

/-- R190: a decision by its kind. -/
theorem decisionBytes_some (d : Decision) : decisionBytes (.some d) =
    let last : List Byte := [setCode d.set, flagByte d.quick + 2 * flagByte d.partialFlag, d.revision]
    match d.body with
    | .piece q => [1, 1, byte q.i, byte q.j, byte (q.j - q.i), byte q.grade, byte q.final, byte d.wc]
        ++ be16n q.product ++ be16n q.value ++ [opt8 q.chosen, opt8 q.alternate] ++ last
    | .cull => [1, 2, 0xFF, 0xFF, 0xFF, 0xFF, 0xFF, byte d.wc, 0xFF, 0xFF, 0, 0, 0xFF, 0xFF] ++ last
    | .reject => [1, 3, 0xFF, 0xFF, 0xFF, 0xFF, 0xFF, byte d.wc, 0xFF, 0xFF, 0, 0, 0xFF, 0xFF] ++ last := by
  dsimp only [decisionBytes]
  rw [flagPair]
  cases d.body <;> rfl

/-- R190: a committed decision and the presence byte before it. -/
theorem committedBytes_present (c : Option Committed) : [flagByte c.isSome] ++ committedBytes c = match c with
    | .none => [0, 0] ++ List.replicate 6 0xFF
    | .some c => [1, 1, byte (kindCode c.kind)] ++ pairBytes c.saws ++ [opt8 c.bin] ++ opt16 c.product := by
  cases c <;> rfl

/-! ### The reading requests -/

theorem binRead_good (good : num8 (requestArgs f) 0 ≤ 47 ∧ 1 ≤ num8 (requestArgs f) 1 ∧ num8 (requestArgs f) 1 ≤ 24
      ∧ num8 (requestArgs f) 0 + num8 (requestArgs f) 1 ≤ 48) :
    binRead s p f = reply s p f .done ((List.range (num8 (requestArgs f) 1)).flatMap fun k =>
      binBytes s.bos (num8 (requestArgs f) 0 + k)) := if_pos good

theorem quotaRead_good (good : num16 (requestArgs f) 0 ≤ 639 ∧ 1 ≤ num8 (requestArgs f) 2
      ∧ num8 (requestArgs f) 2 ≤ 100 ∧ num16 (requestArgs f) 0 + num8 (requestArgs f) 2 ≤ 640) :
    quotaRead s p f = reply s p f .done
      (presenceBytes s.bos (num16 (requestArgs f) 0) (num8 (requestArgs f) 2)
        ++ (List.range (num8 (requestArgs f) 2)).flatMap fun k =>
          be16n ((quotaAt s.bos (num16 (requestArgs f) 0 + k)).getD 0)) := if_pos good

/-- Table 7-2: the range of a TALLY-READ. -/
def tallyRanged (args : List Byte) (last : Nat) : Prop :=
  num16 args 2 ≤ last ∧ 1 ≤ num8 args 4 ∧ num8 args 4 ≤ 48 ∧ num16 args 2 + num8 args 4 ≤ last + 1

/-- Table 7-2: the arguments of a TALLY-READ that pass. -/
def tallyGood (args : List Byte) : Prop := num8 args 0 ≤ 1
  ∧ (num8 args 1 ≤ 1 ∧ tallyRanged args 639 ∨ num8 args 1 = 2 ∧ tallyRanged args 47 ∨ num8 args 1 = 3)

/-- The code of a form. -/
def formCode : TallyForm → Nat
  | .productPieces => 0
  | .productFeet => 1
  | .bins => 2
  | .counters => 3

theorem formOf_named {code : Nat} {form : TallyForm} (named : formOf code = .some form) : code = formCode form := by
  match code with
  | 0 | 1 | 2 | 3 => cases named; rfl
  | _ + 4 => cases named

theorem tallyGood_iff (args : List Byte) : tallyGood args ↔ ∃ form, formOf (num8 args 1) = .some form
    ∧ num8 args 0 ≤ 1 ∧ tallyRange form (num16 args 2) (num8 args 4) = true := by
  unfold tallyGood tallyRanged
  constructor
  · rintro ⟨period, ⟨product, ranged⟩ | ⟨bins, ranged⟩ | counters⟩
    · obtain none | one : num8 args 1 = 0 ∨ num8 args 1 = 1 := by omega
      · exact ⟨.productPieces, congrArg formOf none, period, by simpa [tallyRange, and_assoc] using ranged⟩
      · exact ⟨.productFeet, congrArg formOf one, period, by simpa [tallyRange, and_assoc] using ranged⟩
    · exact ⟨.bins, congrArg formOf bins, period, by simpa [tallyRange, and_assoc] using ranged⟩
    · exact ⟨.counters, congrArg formOf counters, period, rfl⟩
  · rintro ⟨form, named, period, ranged⟩
    have code := formOf_named named
    refine ⟨period, ?_⟩
    rw [code]
    cases form with
    | productPieces => exact .inl ⟨by decide, by simpa [tallyRange, and_assoc] using ranged⟩
    | productFeet => exact .inl ⟨by decide, by simpa [tallyRange, and_assoc] using ranged⟩
    | bins => exact .inr (.inl ⟨rfl, by simpa [tallyRange, and_assoc] using ranged⟩)
    | counters => exact .inr (.inr rfl)

theorem tallyRead_bad (bad : ¬ tallyGood (requestArgs f)) : tallyRead s p f = reply s p f .badArg [] := by
  rw [tallyGood_iff] at bad
  unfold tallyRead
  dsimp only
  cases named : formOf (num8 (requestArgs f) 1) with
  | none => rfl
  | some form =>
    refine if_pos ?_
    by_contra passes
    obtain ⟨period, ranged⟩ := not_or.1 passes
    exact bad ⟨form, named, Nat.not_lt.1 period, by rwa [Bool.not_eq_false] at ranged⟩

section
variable {form : TallyForm} (named : formOf (num8 (requestArgs f) 1) = .some form)
  (ranged : tallyRange form (num16 (requestArgs f) 2) (num8 (requestArgs f) 4) = true)
include named ranged

theorem tallyRead_current (current : num8 (requestArgs f) 0 = 0) : tallyRead s p f = reply s p f .done
    (periodBytes s.tu.current form (num16 (requestArgs f) 2) (num8 (requestArgs f) 4) s.ct.seq (committedCount s)) := by
  unfold tallyRead
  dsimp only
  rw [named]
  dsimp only
  rw [if_neg (by rw [current, ranged]; simp), if_pos current]

theorem tallyRead_none (closed : num8 (requestArgs f) 0 = 1) (none : s.tu.closed = .none) :
    tallyRead s p f = reply s p f .unknown [] := by
  unfold tallyRead
  dsimp only
  rw [named]
  dsimp only
  rw [if_neg (by rw [closed, ranged]; simp), if_neg (by rw [closed]; decide), none]

theorem tallyRead_closed (closed : num8 (requestArgs f) 0 = 1) {c : ClosedPeriod} (some : s.tu.closed = .some c) :
    tallyRead s p f = reply s p f .done (periodBytes c.period form (num16 (requestArgs f) 2) (num8 (requestArgs f) 4)
      c.seqAtClose c.inTransit) := by
  unfold tallyRead
  dsimp only
  rw [named]
  dsimp only
  rw [if_neg (by rw [closed, ranged]; simp), if_neg (by rw [closed]; decide), some]

end

theorem groupBytes_above {n : Nat} (above : 9 < n) : groupBytes s n = .none :=
  match n, above with
  | _ + 10, _ => rfl

theorem statusRead_bad (bad : 9 < num8 (requestArgs f) 0) : statusRead s p f = reply s p f .badArg [] := by
  rw [statusRead, groupBytes_above bad]

theorem statusRead_good {g : List Byte} (named : groupBytes s (num8 (requestArgs f) 0) = .some g) :
    statusRead s p f = reply (s.updTm clearLog) p f .done (eccBytes s.tm ++ g) := by
  rw [statusRead, named]

/-- Settles O57: each request's checks, and the layouts part by part. -/
theorem readingRequestsReportTheState : Obligations.ReadingRequestsReportTheState := by
  unfold Obligations.ReadingRequestsReportTheState
  intro flag words mapBytes filterFields portFields queueFields group slotFields s p f rest s1 args
  refine ⟨fun request => ?_, fun request => ?_, fun request => ?_, fun request => ?_, fun request => ?_⟩
  · have meaning : exec .binRead s = .next (binRead s1 p f) := takeRequest_requested _ rfl request
    intro first count good
    rw [meaning]
    refine ⟨fun passes => ?_, fun bad => ?_⟩
    · rw [binRead_good passes]
      simp only [binBytes_eq]
      rfl
    · exact congrArg Host.Outcome.next (if_neg bad)
  · have meaning : exec .quotaRead s = .next (quotaRead s1 p f) := takeRequest_requested _ rfl request
    intro first count good
    rw [meaning]
    refine ⟨fun passes => ⟨presenceBytes s.bos first count, presenceBytes_length _ _ _, fun m small => ?_, ?_⟩,
      fun bad => ?_⟩
    · rw [presenceBytes_length] at small
      exact presenceBytes_bit s.bos first count small
    · rw [quotaRead_good passes]
      rfl
    · exact congrArg Host.Outcome.next (if_neg bad)
  · have meaning : exec .tallyRead s = .next (tallyRead s1 p f) := takeRequest_requested _ rfl request
    intro first count code ranged good report
    have layout {form : TallyForm} (named : formOf code = .some form) (t : TallyPeriod) (seq : LugSeq) (transit : Nat) :
        periodBytes t form (num16 (requestArgs f) 2) (num8 (requestArgs f) 4) seq transit = report t seq transit := by
      have number : code = formCode form := formOf_named named
      dsimp only [report]
      rw [number]
      cases form <;> rfl
    rw [meaning]
    refine ⟨fun bad => by rw [tallyRead_bad bad], fun passes current => ?_, fun passes closed none => ?_,
      fun passes closed c some => ?_⟩ <;> obtain ⟨form, named, -, within⟩ := (tallyGood_iff args).1 passes
    · rw [tallyRead_current (s := s1) named within current, layout named]
      rfl
    · rw [tallyRead_none (s := s1) named within closed none]
    · rw [tallyRead_closed (s := s1) named within closed some, layout named]
  · have meaning : exec .statusRead s = .next (statusRead s1 p f) := takeRequest_requested _ rfl request
    intro record
    rw [meaning]
    have port_layout (q : PortState) : portBytes q = portFields q := rfl
    have group_layout (t : State) : ∀ n ≤ 9, groupBytes t n = .some (group t n) := by
      intro n named
      match n, named with
      | 0, _ => rfl
      | 1, _ => rfl
      | 2, _ => exact congrArg Option.some (optimizerGroup_eq t)
      | 3, _ => rfl
      | 4, _ => rfl
      | 5, _ => rfl
      | 6, _ => exact congrArg Option.some (linkGroup_eq t)
      | 7, _ => rfl
      | 8, _ => rfl
      | 9, _ => exact congrArg Option.some (settingsGroup_eq t)
    have log_layout : eccBytes s.tm = record ++ words [s.tm.corrected, s.tm.uncorrected] := by
      dsimp only [eccBytes, record]
      cases s.tm.record <;> rfl
    refine ⟨fun bad => by rw [statusRead_bad bad], fun named => ?_⟩
    rw [statusRead_good (group_layout s1 _ named)]
    show Host.Outcome.next (reply _ p f .done (eccBytes s.tm ++ _)) = _
    rw [log_layout]
    rfl
  · have meaning : exec .lugRead s = .next (lugRead s1 p f) := takeRequest_requested _ rfl request
    intro lug off
    rw [meaning]
    refine ⟨fun beyond => congrArg Host.Outcome.next (if_pos beyond), fun within => ?_⟩
    have slot_layout (sl : Slot) : slotBytes sl = slotFields sl := by
      have decided : decisionBytes sl.decision = match sl.decision with
          | .none => 0 :: List.replicate 16 0xFF
          | .some d => decisionBytes (.some d) := by cases sl.decision <;> rfl
      simp only [decisionBytes_some] at decided
      dsimp only [slotBytes, slotFields]
      rw [cutBytes_eq, List.append_assoc (_ ++ decisionBytes sl.decision), committedBytes_present, decided]
      simp only [List.append_assoc]
      rfl
    rw [← slot_layout]
    exact congrArg Host.Outcome.next (if_neg (Nat.not_lt.2 within))

end Sys2Proof.Proofs
end

section
/-! SUPPORT. What power-on, the sweep, the reset input and SOFT-RESET leave (the reset tables of every chapter). -/

namespace Sys2Proof.Proofs

open Sys2Proof Sys2Proof.Machine

/-! ### The blocks along the line (R21) -/

theorem vecMap_eq_map {α β : Type} {n : Nat} (g : α → β) (v : Vector α n) : vecMap g v = v.map g := by
  ext i
  simp [vecMap]

/-- R21: the sequences of the ring after a reset, each 64 − k behind 0. -/
theorem ringAtReset_eq : ringAtReset = Vector.ofFn fun k : Fin 64 =>
    Slot.empty (if k.val = 0 then 0 else BitVec.ofNat 16 (65536 - (64 - k.val))) := by
  refine Vector.ext fun k small => ?_
  have behind : 65472 + k = 65536 - (64 - k) := by omega
  simp [ringAtReset, resetSeq, behind]

theorem resetStore_eq (b : BinStore) : resetStore b =
    { bins := b.bins.map fun r => { r with reserved := 0 }, quota := b.quota, counts := {} } := by
  unfold resetStore
  rw [vecMap_eq_map]

/-- The blocks along the line after a reset, the clearing counted. -/
def linedUp (s : State) (starting : Bool) : State := { s with
  ct := { seq := 0, c := 0, switchHanded := false, spurious := 0, slip := 0, missing := 0, mode := .stop,
          starting := starting }
  ring := Vector.ofFn fun k : Fin 64 =>
    Slot.empty (if k.val = 0 then 0 else BitVec.ofNat 16 (65536 - (64 - k.val)))
  sa := {
    cache := s.sa.cache
    buffers := s.sa.buffers
    freeList := List.range 24
    cursors := Vector.replicate 8 .none
    lossRun := 0
    counts := {} }
  opt := { queue := [], job := .none, lastQuick := false, counts := {} }
  mh := {}
  cu := { saws := .none, source := .none, inFlight := .none, heldLocks := [], heldSwitch := .none }
  bos := {
    bins := s.bos.bins.map fun r => { r with reserved := 0 }
    quota := s.bos.quota
    counts := {} }
  tu := { s.tu with current := s.tu.current.add .clearings 1 }
  mg := { exec := .none, shortRequests := 0 }
  handed := {} }

theorem resetBlocks_linedUp (s : State) (starting : Bool) :
    (resetBlocks s starting).report [(.clearings, 1)] = linedUp s starting := by
  unfold linedUp
  rw [← ringAtReset_eq, ← resetStore_eq]
  rfl

theorem releaseReset_eq (s : State) : releaseReset s = { linedUp s s.ct.starting with
    settings := Settings.defaults
    lu := LinkUnit.atReset
    resetPin := false
    tm := lineResetMemory s.tm s.ct.starting } := by
  rw [← resetBlocks_linedUp]
  rfl

/-- R139: an access of a requester given up runs on unwanted. -/
theorem disown_both (a : Option Access) : disown .optimizer (disown .commit a) = a.map fun x =>
    if x.who = .commit ∨ x.who = .optimizer then { x with wanted := false } else x := by
  cases a with
  | none => rfl
  | some x =>
    refine congrArg Option.some ?_
    by_cases commit : x.who = .commit
    · simp [commit]
    · simp [commit]

theorem softReset_eq (s : State) : softReset s = { linedUp s false with
    tm := { s.tm with
      visitDue := false, waitCommit := .none, waitOpt := .none, waitMgmt := .none
      access := s.tm.access.map fun x =>
        if x.who = .commit ∨ x.who = .optimizer then { x with wanted := false } else x }
    lu := emptyQueues s.lu } := by
  rw [← resetBlocks_linedUp, ← disown_both]
  rfl

/-! ### The access cut by the reset input (R154) -/

/-- R154: what an access cut may have stored at its word. -/
def cutStores (s : State) (a : Access) (v : Word) : Prop :=
  a.kind = .write v ∨ a.kind = .scrub ∧ checkAt s a.index = .single v
    ∨ ∃ h b w, a.kind = .writeByte h b ∧ v = mergeHalf h b w
      ∧ (checkAt s a.index = .clean w ∨ checkAt s a.index = .single w)

/-- R154: the words an access cut may leave. -/
def cutLeaves (s : State) (words : Sparse StoredWord) : Prop := words = s.tm.words
  ∨ ∃ a v, s.tm.access = .some a
    ∧ words = sparseSet blankWord s.tm.words a.index { written := v, changed := 0 } ∧ cutStores s a v

theorem cutAccess_form (s : State) (a : Access) (lands : Bool) :
    cutAccess s a lands = s.tm ∨ ∃ v, cutAccess s a lands = storeWord s.tm a.index (freshWord v) ∧ cutStores s a v := by
  unfold cutAccess
  split
  · split
    · rename_i kind
      exact .inr ⟨_, rfl, .inl kind⟩
    · rename_i kind found
      exact .inr ⟨_, rfl, .inr (.inr ⟨_, _, _, kind, rfl, .inl found⟩)⟩
    · rename_i kind found
      exact .inr ⟨_, rfl, .inr (.inr ⟨_, _, _, kind, rfl, .inr found⟩)⟩
    · exact .inl rfl
    · rename_i kind found
      exact .inr ⟨_, rfl, .inr (.inl ⟨kind, found⟩)⟩
    · exact .inl rfl
    · exact .inl rfl
  · exact .inl rfl

theorem endCutAccess_idle {s : State} (idle : s.tm.access = .none) : endCutAccess s = s := by
  rw [endCutAccess, idle]

theorem endCutAccess_busy {s : State} {a : Access} (busy : s.tm.access = .some a) : endCutAccess s = { s with
    tm := { cutAccess s a (Config.writeLands s.freeCount) with access := .none }, freeCount := s.freeCount + 1 } := by
  rw [endCutAccess, busy]
  rfl

/-- R154: the access ends, its word as it was or as the access would have left it. -/
theorem endCutAccess_form (s : State) : ∃ words n, cutLeaves s words
    ∧ endCutAccess s = { s with tm := { s.tm with words := words, access := .none }, freeCount := n } := by
  cases access : s.tm.access with
  | none =>
    refine ⟨s.tm.words, s.freeCount, .inl rfl, ?_⟩
    rw [endCutAccess_idle access]
    exact congrArg (fun x => { s with tm := { s.tm with access := x } }) access
  | some a =>
    rw [endCutAccess_busy access]
    rcases cutAccess_form s a (Config.writeLands s.freeCount) with kept | ⟨v, stored, stores⟩
    · exact ⟨s.tm.words, s.freeCount + 1, .inl rfl, by rw [kept]⟩
    · exact ⟨_, s.freeCount + 1, .inr ⟨a, v, access, rfl, stores⟩, by rw [stored]; rfl⟩

/-- R154, R173: the assertion of the reset input, but for the word of an access cut. -/
theorem assertReset_form (s : State) : ∃ words n, cutLeaves s words ∧ assertReset s = { s with
    cu := { s.cu with saws := .none }
    lu := { s.lu with u := { s.lu.u with sending := .none, rx := .none }
                      d := { s.lu.d with sending := .none, rx := .none } }
    tm := { s.tm with words := words, access := .none }
    freeCount := n
    resetPin := true } := by
  obtain ⟨words, n, leaves, form⟩ := endCutAccess_form (cutPort (cutPort s .U) .D)
  refine ⟨words, n, leaves, ?_⟩
  unfold assertReset
  rw [form]
  rfl

/-- Settles O60: each reset is written out, and the cut access by its kind and the check of its word. -/
theorem resetsLeaveTheValuesOfTheTables : Obligations.ResetsLeaveTheValuesOfTheTables := by
  unfold Obligations.ResetsLeaveTheValuesOfTheTables
  intro s slots lined
  refine ⟨rfl, fun up starting => ?_, fun up => ?_, fun held => ?_, fun p f rest request => ?_⟩
  · have meaning : exec .sweepComplete s = .next (endSweep s) := exec_released _ up
    rw [meaning, endSweep, if_pos starting]
    rfl
  · have meaning : exec .resetAssert s = .next (assertReset s) := exec_released _ up
    obtain ⟨words, n, leaves, form⟩ := assertReset_form s
    have framed : unchangedBut (touches .resetAssert) s (assertReset s) := assertReset_touches s
    refine ⟨_, meaning, ?_⟩
    rw [form] at framed ⊢
    exact ⟨rfl, rfl, rfl, rfl, rfl, leaves, framed⟩
  · have meaning : exec .resetRelease s = .next (releaseReset s) := congrArg Host.Outcome.next (if_pos held)
    rw [meaning, releaseReset_eq]
    rfl
  · have meaning : exec .softReset s = .next (softResetRequest (mgmtTaken s rest) p f) :=
      takeRequest_requested _ rfl request
    rw [meaning, softResetRequest, softReset_eq]
    rfl

end Sys2Proof.Proofs
end
